-- ==== Sys2Proof/Word.lean ====
section
/-! DEFINITION. Word.lean: the bit-vector types of the ADOP processor (spec/10_state.md R20, spec/30_encoding.md R101).
-/
namespace Sys2Proof

/-- A general register, the program counter, a memory word, an immediate halfword: 16 bits (00_scope.md R5). -/
abbrev Word := BitVec 16

/-- The unit of memory, 8 bits (20_memory.md R60). -/
abbrev Byte := BitVec 8

/-- The number of a general register in a field rA or rB (10_state.md R20). -/
abbrev RegNum := BitVec 4

/-- One of the four parts of an opcode halfword (30_encoding.md R101). -/
abbrev Nibble := BitVec 4

end Sys2Proof
end

