-- ==== Sys2Proof/Syntax.lean ====
section
/-! DEFINITION. Syntax.lean: the instructions, one constructor for each row of spec/opcode_table.json (197 encodings and
the 6 rows that are second names, 30_encoding.md R120, R132). Operands stand in the order of the encoding: the fields
of the opcode halfword (R101), then the second halfword. A nibble printed x in the table is no operand (R105).
-/
namespace Sys2Proof

/-- An ADOP instruction. -/
inductive Instr where
  -- Move and store (spec/40_move_store.md)
  /-- `MOV rA, imm4`, encoding `1 0 rA imm4` (R202). -/
  | movImm4 (rA : RegNum) (imm4 : Nibble)
  /-- `MOV rA, rB`, encoding `2 0 rA rB` (R203). -/
  | movReg (rA : RegNum) (rB : RegNum)
  /-- `MOV rA, XAF`, encoding `3 0 rA x` (R204). -/
  | movXaf (rA : RegNum)
  /-- `MOVB rA, [rB]`, encoding `4 0 rA rB` (R205). -/
  | movbInd (rA : RegNum) (rB : RegNum)
  /-- `MOVS rA, [rB]`, encoding `5 0 rA rB` (R206). -/
  | movsInd (rA : RegNum) (rB : RegNum)
  /-- `MOV rA, [rB]`, encoding `6 0 rA rB` (R207). -/
  | movInd (rA : RegNum) (rB : RegNum)
  /-- `MOV rA, imm16`, encoding `8 0 rA x imm16` (R208). -/
  | movImm16 (rA : RegNum) (imm16 : Word)
  /-- `MOVB rA, [rB+offs16]`, encoding `C 0 rA rB offs16` (R209). -/
  | movbBased (rA : RegNum) (rB : RegNum) (offs16 : Word)
  /-- `MOVS rA, [rB+offs16]`, encoding `D 0 rA rB offs16` (R210). -/
  | movsBased (rA : RegNum) (rB : RegNum) (offs16 : Word)
  /-- `MOV rA, [rB+offs16]`, encoding `E 0 rA rB offs16` (R211). -/
  | movBased (rA : RegNum) (rB : RegNum) (offs16 : Word)
  -- Arithmetic (spec/41_arith.md)
  /-- `ADD rA, imm4`, encoding `1 1 rA imm4` (R251). -/
  | addImm4 (rA : RegNum) (imm4 : Nibble)
  /-- `ADD rA, rB`, encoding `2 1 rA rB` (R252). -/
  | addReg (rA : RegNum) (rB : RegNum)
  /-- `ADD rA, XAF`, encoding `3 1 rA x` (R253). -/
  | addXaf (rA : RegNum)
  /-- `ADDB rA, [rB]`, encoding `4 1 rA rB` (R254). -/
  | addbInd (rA : RegNum) (rB : RegNum)
  /-- `ADDS rA, [rB]`, encoding `5 1 rA rB` (R255). -/
  | addsInd (rA : RegNum) (rB : RegNum)
  /-- `ADD rA, [rB]`, encoding `6 1 rA rB` (R256). -/
  | addInd (rA : RegNum) (rB : RegNum)
  /-- `ADD rA, imm16`, encoding `8 1 rA x imm16` (R257). -/
  | addImm16 (rA : RegNum) (imm16 : Word)
  /-- `ADD rA, rB, imm16`, encoding `B 1 rA rB imm16` (R258). -/
  | addRegImm16 (rA : RegNum) (rB : RegNum) (imm16 : Word)
  /-- `ADDB rA, [rB+offs16]`, encoding `C 1 rA rB offs16` (R259). -/
  | addbBased (rA : RegNum) (rB : RegNum) (offs16 : Word)
  /-- `ADDS rA, [rB+offs16]`, encoding `D 1 rA rB offs16` (R260). -/
  | addsBased (rA : RegNum) (rB : RegNum) (offs16 : Word)
  /-- `ADD rA, [rB+offs16]`, encoding `E 1 rA rB offs16` (R261). -/
  | addBased (rA : RegNum) (rB : RegNum) (offs16 : Word)
  /-- `ADC rA, imm4`, encoding `1 2 rA imm4` (R263). -/
  | adcImm4 (rA : RegNum) (imm4 : Nibble)
  /-- `ADC rA, rB`, encoding `2 2 rA rB` (R264). -/
  | adcReg (rA : RegNum) (rB : RegNum)
  /-- `ADC rA, XAF`, encoding `3 2 rA x` (R265). -/
  | adcXaf (rA : RegNum)
  /-- `ADCB rA, [rB]`, encoding `4 2 rA rB` (R266). -/
  | adcbInd (rA : RegNum) (rB : RegNum)
  /-- `ADCS rA, [rB]`, encoding `5 2 rA rB` (R267). -/
  | adcsInd (rA : RegNum) (rB : RegNum)
  /-- `ADC rA, [rB]`, encoding `6 2 rA rB` (R268). -/
  | adcInd (rA : RegNum) (rB : RegNum)
  /-- `ADC rA, imm16`, encoding `8 2 rA x imm16` (R269). -/
  | adcImm16 (rA : RegNum) (imm16 : Word)
  /-- `ADC rA, rB, imm16`, encoding `B 2 rA rB imm16` (R270). -/
  | adcRegImm16 (rA : RegNum) (rB : RegNum) (imm16 : Word)
  /-- `ADCB rA, [rB+offs16]`, encoding `C 2 rA rB offs16` (R271). -/
  | adcbBased (rA : RegNum) (rB : RegNum) (offs16 : Word)
  /-- `ADCS rA, [rB+offs16]`, encoding `D 2 rA rB offs16` (R272). -/
  | adcsBased (rA : RegNum) (rB : RegNum) (offs16 : Word)
  /-- `ADC rA, [rB+offs16]`, encoding `E 2 rA rB offs16` (R273). -/
  | adcBased (rA : RegNum) (rB : RegNum) (offs16 : Word)
  /-- `CMP rA, imm4`, encoding `1 8 rA imm4` (R275). -/
  | cmpImm4 (rA : RegNum) (imm4 : Nibble)
  /-- `CMP rA, rB`, encoding `2 8 rA rB` (R276). -/
  | cmpReg (rA : RegNum) (rB : RegNum)
  /-- `CMP rA, XAF`, encoding `3 8 rA x` (R277). -/
  | cmpXaf (rA : RegNum)
  /-- `CMPB rA, [rB]`, encoding `4 8 rA rB` (R278). -/
  | cmpbInd (rA : RegNum) (rB : RegNum)
  /-- `CMPS rA, [rB]`, encoding `5 8 rA rB` (R279). -/
  | cmpsInd (rA : RegNum) (rB : RegNum)
  /-- `CMP rA, [rB]`, encoding `6 8 rA rB` (R280). -/
  | cmpInd (rA : RegNum) (rB : RegNum)
  /-- `CMP rA, imm16`, encoding `8 8 rA x imm16` (R281). -/
  | cmpImm16 (rA : RegNum) (imm16 : Word)
  /-- `CMP rA, rB, imm16`, encoding `B 8 rA rB imm16` (R282). -/
  | cmpRegImm16 (rA : RegNum) (rB : RegNum) (imm16 : Word)
  /-- `CMPB rA, [rB+offs16]`, encoding `C 8 rA rB offs16` (R283). -/
  | cmpbBased (rA : RegNum) (rB : RegNum) (offs16 : Word)
  /-- `CMPS rA, [rB+offs16]`, encoding `D 8 rA rB offs16` (R284). -/
  | cmpsBased (rA : RegNum) (rB : RegNum) (offs16 : Word)
  /-- `CMP rA, [rB+offs16]`, encoding `E 8 rA rB offs16` (R285). -/
  | cmpBased (rA : RegNum) (rB : RegNum) (offs16 : Word)
  /-- `SUB rA, imm4`, encoding `1 3 rA imm4` (R290). -/
  | subImm4 (rA : RegNum) (imm4 : Nibble)
  /-- `SUB rA, rB`, encoding `2 3 rA rB` (R291). -/
  | subReg (rA : RegNum) (rB : RegNum)
  /-- `SUB rA, XAF`, encoding `3 3 rA x` (R292). -/
  | subXaf (rA : RegNum)
  /-- `SUBB rA, [rB]`, encoding `4 3 rA rB` (R293). -/
  | subbInd (rA : RegNum) (rB : RegNum)
  /-- `SUBS rA, [rB]`, encoding `5 3 rA rB` (R294). -/
  | subsInd (rA : RegNum) (rB : RegNum)
  /-- `SUB rA, [rB]`, encoding `6 3 rA rB` (R295). -/
  | subInd (rA : RegNum) (rB : RegNum)
  /-- `SUB rA, imm16`, encoding `8 3 rA x imm16` (R296). -/
  | subImm16 (rA : RegNum) (imm16 : Word)
  /-- `SUB rA, rB, imm16`, encoding `B 3 rA rB imm16` (R297). -/
  | subRegImm16 (rA : RegNum) (rB : RegNum) (imm16 : Word)
  /-- `SUBB rA, [rB+offs16]`, encoding `C 3 rA rB offs16` (R298). -/
  | subbBased (rA : RegNum) (rB : RegNum) (offs16 : Word)
  /-- `SUBS rA, [rB+offs16]`, encoding `D 3 rA rB offs16` (R299). -/
  | subsBased (rA : RegNum) (rB : RegNum) (offs16 : Word)
  /-- `SUB rA, [rB+offs16]`, encoding `E 3 rA rB offs16` (R300). -/
  | subBased (rA : RegNum) (rB : RegNum) (offs16 : Word)
  /-- `SBB rA, imm4`, encoding `1 4 rA imm4` (R302). -/
  | sbbImm4 (rA : RegNum) (imm4 : Nibble)
  /-- `SBB rA, rB`, encoding `2 4 rA rB` (R303). -/
  | sbbReg (rA : RegNum) (rB : RegNum)
  /-- `SBB rA, XAF`, encoding `3 4 rA x` (R304). -/
  | sbbXaf (rA : RegNum)
  /-- `SBBB rA, [rB]`, encoding `4 4 rA rB` (R305). -/
  | sbbbInd (rA : RegNum) (rB : RegNum)
  /-- `SBBS rA, [rB]`, encoding `5 4 rA rB` (R306). -/
  | sbbsInd (rA : RegNum) (rB : RegNum)
  /-- `SBB rA, [rB]`, encoding `6 4 rA rB` (R307). -/
  | sbbInd (rA : RegNum) (rB : RegNum)
  /-- `SBB rA, imm16`, encoding `8 4 rA x imm16` (R308). -/
  | sbbImm16 (rA : RegNum) (imm16 : Word)
  /-- `SBB rA, rB, imm16`, encoding `B 4 rA rB imm16` (R309). -/
  | sbbRegImm16 (rA : RegNum) (rB : RegNum) (imm16 : Word)
  /-- `SBBB rA, [rB+offs16]`, encoding `C 4 rA rB offs16` (R310). -/
  | sbbbBased (rA : RegNum) (rB : RegNum) (offs16 : Word)
  /-- `SBBS rA, [rB+offs16]`, encoding `D 4 rA rB offs16` (R311). -/
  | sbbsBased (rA : RegNum) (rB : RegNum) (offs16 : Word)
  /-- `SBB rA, [rB+offs16]`, encoding `E 4 rA rB offs16` (R312). -/
  | sbbBased (rA : RegNum) (rB : RegNum) (offs16 : Word)
  -- Logic (spec/42_logic.md)
  /-- `AND rA, imm4`, encoding `1 5 rA imm4` (R332). -/
  | andImm4 (rA : RegNum) (imm4 : Nibble)
  /-- `AND rA, rB`, encoding `2 5 rA rB` (R333). -/
  | andReg (rA : RegNum) (rB : RegNum)
  /-- `AND rA, XAF`, encoding `3 5 rA x` (R334). -/
  | andXaf (rA : RegNum)
  /-- `ANDB rA, [rB]`, encoding `4 5 rA rB` (R335). -/
  | andbInd (rA : RegNum) (rB : RegNum)
  /-- `ANDS rA, [rB]`, encoding `5 5 rA rB` (R336). -/
  | andsInd (rA : RegNum) (rB : RegNum)
  /-- `AND rA, [rB]`, encoding `6 5 rA rB` (R337). -/
  | andInd (rA : RegNum) (rB : RegNum)
  /-- `AND rA, imm16`, encoding `8 5 rA x imm16` (R338). -/
  | andImm16 (rA : RegNum) (imm16 : Word)
  /-- `AND rA, rB, imm16`, encoding `B 5 rA rB imm16` (R339). -/
  | andRegImm16 (rA : RegNum) (rB : RegNum) (imm16 : Word)
  /-- `ANDB rA, [rB+offs16]`, encoding `C 5 rA rB offs16` (R340). -/
  | andbBased (rA : RegNum) (rB : RegNum) (offs16 : Word)
  /-- `ANDS rA, [rB+offs16]`, encoding `D 5 rA rB offs16` (R341). -/
  | andsBased (rA : RegNum) (rB : RegNum) (offs16 : Word)
  /-- `AND rA, [rB+offs16]`, encoding `E 5 rA rB offs16` (R342). -/
  | andBased (rA : RegNum) (rB : RegNum) (offs16 : Word)
  /-- `OR rA, imm4`, encoding `1 6 rA imm4` (R345). -/
  | orImm4 (rA : RegNum) (imm4 : Nibble)
  /-- `OR rA, rB`, encoding `2 6 rA rB` (R346). -/
  | orReg (rA : RegNum) (rB : RegNum)
  /-- `OR rA, XAF`, encoding `3 6 rA x` (R347). -/
  | orXaf (rA : RegNum)
  /-- `ORB rA, [rB]`, encoding `4 6 rA rB` (R348). -/
  | orbInd (rA : RegNum) (rB : RegNum)
  /-- `ORS rA, [rB]`, encoding `5 6 rA rB` (R349). -/
  | orsInd (rA : RegNum) (rB : RegNum)
  /-- `OR rA, [rB]`, encoding `6 6 rA rB` (R350). -/
  | orInd (rA : RegNum) (rB : RegNum)
  /-- `OR rA, imm16`, encoding `8 6 rA x imm16` (R351). -/
  | orImm16 (rA : RegNum) (imm16 : Word)
  /-- `OR rA, rB, imm16`, encoding `B 6 rA rB imm16` (R352). -/
  | orRegImm16 (rA : RegNum) (rB : RegNum) (imm16 : Word)
  /-- `ORB rA, [rB+offs16]`, encoding `C 6 rA rB offs16` (R353). -/
  | orbBased (rA : RegNum) (rB : RegNum) (offs16 : Word)
  /-- `ORS rA, [rB+offs16]`, encoding `D 6 rA rB offs16` (R354). -/
  | orsBased (rA : RegNum) (rB : RegNum) (offs16 : Word)
  /-- `OR rA, [rB+offs16]`, encoding `E 6 rA rB offs16` (R355). -/
  | orBased (rA : RegNum) (rB : RegNum) (offs16 : Word)
  /-- `XOR rA, imm4`, encoding `1 7 rA imm4` (R357). -/
  | xorImm4 (rA : RegNum) (imm4 : Nibble)
  /-- `XOR rA, rB`, encoding `2 7 rA rB` (R358). -/
  | xorReg (rA : RegNum) (rB : RegNum)
  /-- `XOR rA, XAF`, encoding `3 7 rA x` (R359). -/
  | xorXaf (rA : RegNum)
  /-- `XORB rA, [rB]`, encoding `4 7 rA rB` (R360). -/
  | xorbInd (rA : RegNum) (rB : RegNum)
  /-- `XORS rA, [rB]`, encoding `5 7 rA rB` (R361). -/
  | xorsInd (rA : RegNum) (rB : RegNum)
  /-- `XOR rA, [rB]`, encoding `6 7 rA rB` (R362). -/
  | xorInd (rA : RegNum) (rB : RegNum)
  /-- `XOR rA, imm16`, encoding `8 7 rA x imm16` (R363). -/
  | xorImm16 (rA : RegNum) (imm16 : Word)
  /-- `XOR rA, rB, imm16`, encoding `B 7 rA rB imm16` (R364). -/
  | xorRegImm16 (rA : RegNum) (rB : RegNum) (imm16 : Word)
  /-- `XORB rA, [rB+offs16]`, encoding `C 7 rA rB offs16` (R365). -/
  | xorbBased (rA : RegNum) (rB : RegNum) (offs16 : Word)
  /-- `XORS rA, [rB+offs16]`, encoding `D 7 rA rB offs16` (R366). -/
  | xorsBased (rA : RegNum) (rB : RegNum) (offs16 : Word)
  /-- `XOR rA, [rB+offs16]`, encoding `E 7 rA rB offs16` (R367). -/
  | xorBased (rA : RegNum) (rB : RegNum) (offs16 : Word)
  -- Shift and rotate (spec/43_shift_rotate.md)
  /-- `ASR rA, imm4`, encoding `1 B rA imm4` (R385). -/
  | asrImm4 (rA : RegNum) (imm4 : Nibble)
  /-- `ASR rA, rB`, encoding `2 B rA rB` (R386). -/
  | asrReg (rA : RegNum) (rB : RegNum)
  /-- `ASR rA, XAF`, encoding `3 B rA x` (R387). -/
  | asrXaf (rA : RegNum)
  /-- `ASRB rA, [rB]`, encoding `4 B rA rB` (R388). -/
  | asrbInd (rA : RegNum) (rB : RegNum)
  /-- `ASR rA, [rB]`, encoding `6 B rA rB` (R389). -/
  | asrInd (rA : RegNum) (rB : RegNum)
  /-- `ASR rA, imm16`, encoding `8 B rA x imm16` (R390). -/
  | asrImm16 (rA : RegNum) (imm16 : Word)
  /-- `ASR rA, rB, imm16`, encoding `B B rA rB imm16` (R391). -/
  | asrRegImm16 (rA : RegNum) (rB : RegNum) (imm16 : Word)
  /-- `ASRB rA, [rB+offs16]`, encoding `C B rA rB offs16` (R392). -/
  | asrbBased (rA : RegNum) (rB : RegNum) (offs16 : Word)
  /-- `ASR rA, [rB+offs16]`, encoding `E B rA rB offs16` (R393). -/
  | asrBased (rA : RegNum) (rB : RegNum) (offs16 : Word)
  /-- `RLC rA, imm4`, encoding `1 D rA imm4` (R395). -/
  | rlcImm4 (rA : RegNum) (imm4 : Nibble)
  /-- `RLC rA, rB`, encoding `2 D rA rB` (R396). -/
  | rlcReg (rA : RegNum) (rB : RegNum)
  /-- `RLC rA, XAF`, encoding `3 D rA x` (R397). -/
  | rlcXaf (rA : RegNum)
  /-- `RLCB rA, [rB]`, encoding `4 D rA rB` (R398). -/
  | rlcbInd (rA : RegNum) (rB : RegNum)
  /-- `RLC rA, [rB]`, encoding `6 D rA rB` (R399). -/
  | rlcInd (rA : RegNum) (rB : RegNum)
  /-- `RLC rA, imm16`, encoding `8 D rA x imm16` (R400). -/
  | rlcImm16 (rA : RegNum) (imm16 : Word)
  /-- `RLC rA, rB, imm16`, encoding `B D rA rB imm16` (R401). -/
  | rlcRegImm16 (rA : RegNum) (rB : RegNum) (imm16 : Word)
  /-- `RLCB rA, [rB+offs16]`, encoding `C D rA rB offs16` (R402). -/
  | rlcbBased (rA : RegNum) (rB : RegNum) (offs16 : Word)
  /-- `RLC rA, [rB+offs16]`, encoding `E D rA rB offs16` (R403). -/
  | rlcBased (rA : RegNum) (rB : RegNum) (offs16 : Word)
  /-- `ROR rA, imm4`, encoding `1 C rA imm4` (R405). -/
  | rorImm4 (rA : RegNum) (imm4 : Nibble)
  /-- `ROR rA, rB`, encoding `2 C rA rB` (R406). -/
  | rorReg (rA : RegNum) (rB : RegNum)
  /-- `ROR rA, XAF`, encoding `3 C rA x` (R407). -/
  | rorXaf (rA : RegNum)
  /-- `RORB rA, [rB]`, encoding `4 C rA rB` (R408). -/
  | rorbInd (rA : RegNum) (rB : RegNum)
  /-- `ROR rA, [rB]`, encoding `6 C rA rB` (R409). -/
  | rorInd (rA : RegNum) (rB : RegNum)
  /-- `ROR rA, imm16`, encoding `8 C rA x imm16` (R410). -/
  | rorImm16 (rA : RegNum) (imm16 : Word)
  /-- `ROR rA, rB, imm16`, encoding `B C rA rB imm16` (R411). -/
  | rorRegImm16 (rA : RegNum) (rB : RegNum) (imm16 : Word)
  /-- `RORB rA, [rB+offs16]`, encoding `C C rA rB offs16` (R412). -/
  | rorbBased (rA : RegNum) (rB : RegNum) (offs16 : Word)
  /-- `ROR rA, [rB+offs16]`, encoding `E C rA rB offs16` (R413). -/
  | rorBased (rA : RegNum) (rB : RegNum) (offs16 : Word)
  /-- `RRC rA, imm4`, encoding `1 E rA imm4` (R415). -/
  | rrcImm4 (rA : RegNum) (imm4 : Nibble)
  /-- `RRC rA, rB`, encoding `2 E rA rB` (R416). -/
  | rrcReg (rA : RegNum) (rB : RegNum)
  /-- `RRC rA, XAF`, encoding `3 E rA x` (R417). -/
  | rrcXaf (rA : RegNum)
  /-- `RRCB rA, [rB]`, encoding `4 E rA rB` (R418). -/
  | rrcbInd (rA : RegNum) (rB : RegNum)
  /-- `RRC rA, [rB]`, encoding `6 E rA rB` (R419). -/
  | rrcInd (rA : RegNum) (rB : RegNum)
  /-- `RRC rA, imm16`, encoding `8 E rA x imm16` (R420). -/
  | rrcImm16 (rA : RegNum) (imm16 : Word)
  /-- `RRC rA, rB, imm16`, encoding `B E rA rB imm16` (R421). -/
  | rrcRegImm16 (rA : RegNum) (rB : RegNum) (imm16 : Word)
  /-- `RRCB rA, [rB+offs16]`, encoding `C E rA rB offs16` (R422). -/
  | rrcbBased (rA : RegNum) (rB : RegNum) (offs16 : Word)
  /-- `RRC rA, [rB+offs16]`, encoding `E E rA rB offs16` (R423). -/
  | rrcBased (rA : RegNum) (rB : RegNum) (offs16 : Word)
  /-- `SHL rA, imm4`, encoding `1 9 rA imm4` (R425). -/
  | shlImm4 (rA : RegNum) (imm4 : Nibble)
  /-- `SHL rA, rB`, encoding `2 9 rA rB` (R426). -/
  | shlReg (rA : RegNum) (rB : RegNum)
  /-- `SHL rA, XAF`, encoding `3 9 rA x` (R427). -/
  | shlXaf (rA : RegNum)
  /-- `SHLB rA, [rB]`, encoding `4 9 rA rB` (R428). -/
  | shlbInd (rA : RegNum) (rB : RegNum)
  /-- `SHL rA, [rB]`, encoding `6 9 rA rB` (R429). -/
  | shlInd (rA : RegNum) (rB : RegNum)
  /-- `SHL rA, imm16`, encoding `8 9 rA x imm16` (R430). -/
  | shlImm16 (rA : RegNum) (imm16 : Word)
  /-- `SHL rA, rB, imm16`, encoding `B 9 rA rB imm16` (R431). -/
  | shlRegImm16 (rA : RegNum) (rB : RegNum) (imm16 : Word)
  /-- `SHLB rA, [rB+offs16]`, encoding `C 9 rA rB offs16` (R432). -/
  | shlbBased (rA : RegNum) (rB : RegNum) (offs16 : Word)
  /-- `SHL rA, [rB+offs16]`, encoding `E 9 rA rB offs16` (R433). -/
  | shlBased (rA : RegNum) (rB : RegNum) (offs16 : Word)
  /-- `SHR rA, imm4`, encoding `1 A rA imm4` (R435). -/
  | shrImm4 (rA : RegNum) (imm4 : Nibble)
  /-- `SHR rA, rB`, encoding `2 A rA rB` (R436). -/
  | shrReg (rA : RegNum) (rB : RegNum)
  /-- `SHR rA, XAF`, encoding `3 A rA x` (R437). -/
  | shrXaf (rA : RegNum)
  /-- `SHRB rA, [rB]`, encoding `4 A rA rB` (R438). -/
  | shrbInd (rA : RegNum) (rB : RegNum)
  /-- `SHR rA, [rB]`, encoding `6 A rA rB` (R439). -/
  | shrInd (rA : RegNum) (rB : RegNum)
  /-- `SHR rA, imm16`, encoding `8 A rA x imm16` (R440). -/
  | shrImm16 (rA : RegNum) (imm16 : Word)
  /-- `SHR rA, rB, imm16`, encoding `B A rA rB imm16` (R441). -/
  | shrRegImm16 (rA : RegNum) (rB : RegNum) (imm16 : Word)
  /-- `SHRB rA, [rB+offs16]`, encoding `C A rA rB offs16` (R442). -/
  | shrbBased (rA : RegNum) (rB : RegNum) (offs16 : Word)
  /-- `SHR rA, [rB+offs16]`, encoding `E A rA rB offs16` (R443). -/
  | shrBased (rA : RegNum) (rB : RegNum) (offs16 : Word)
  -- System (spec/47_system.md)
  /-- `NOP`, encoding `0 0 x x` (R534). -/
  | nop
  -- Control transfer (spec/45_control.md)
  /-- `JMPI rA`, encoding `0 1 rA 0` (R491). -/
  | jmpi (rA : RegNum)
  /-- `CALLI rA`, encoding `0 1 rA 1` (R474). -/
  | calli (rA : RegNum)
  /-- `RET`, encoding `0 2 x 0` (R492). -/
  | ret
  -- System (spec/47_system.md)
  /-- `RETI`, encoding `0 2 x 1` (R535). -/
  | reti
  -- Logic (spec/42_logic.md)
  /-- `NOT rA`, encoding `0 3 rA 0` (R343). -/
  | not (rA : RegNum)
  -- Arithmetic (spec/41_arith.md)
  /-- `NEG rA`, encoding `0 3 rA 1` (R288). -/
  | neg (rA : RegNum)
  /-- `INC rA`, encoding `0 3 rA 2` (R287). -/
  | inc (rA : RegNum)
  /-- `DEC rA`, encoding `0 3 rA 3` (R286). -/
  | dec (rA : RegNum)
  -- Stack and flags (spec/46_stack_flags.md)
  /-- `PUSH rA`, encoding `0 4 rA 0` (R513). -/
  | push (rA : RegNum)
  /-- `PUSHF`, encoding `0 4 x 1` (R514). -/
  | pushf
  /-- `POP rA`, encoding `0 4 rA 2` (R511). -/
  | pop (rA : RegNum)
  /-- `POPF`, encoding `0 4 x 3` (R512). -/
  | popf
  /-- `CLC`, encoding `0 5 x 0` (R515). -/
  | clc
  /-- `STC`, encoding `0 5 x 1` (R517). -/
  | stc
  /-- `CLI`, encoding `0 5 x 2` (R516). -/
  | cli
  /-- `STI`, encoding `0 5 x 3` (R518). -/
  | sti
  -- Multiply (spec/44_multiply.md)
  /-- `MULU rA, rB`, encoding `0 8 rA rB` (R461). -/
  | mulu (rA : RegNum) (rB : RegNum)
  /-- `MULS rA, rB`, encoding `0 9 rA rB` (R460). -/
  | muls (rA : RegNum) (rB : RegNum)
  -- Move and store (spec/40_move_store.md)
  /-- `MHR rA, hrB`, encoding `0 A rA hrB` (R200). -/
  | mhr (rA : RegNum) (hrB : Nibble)
  /-- `STB [rB], rA`, encoding `7 0 rA rB` (R213). -/
  | stbInd (rA : RegNum) (rB : RegNum)
  /-- `ST [rB], rA`, encoding `7 1 rA rB` (R214). -/
  | stInd (rA : RegNum) (rB : RegNum)
  -- System (spec/47_system.md)
  /-- `CCB [rB]`, encoding `7 8 x rB` (R531). -/
  | ccbInd (rB : RegNum)
  -- Move and store (spec/40_move_store.md)
  /-- `STB [rB+offs16], rA`, encoding `F 0 rA rB offs16` (R215). -/
  | stbBased (rA : RegNum) (rB : RegNum) (offs16 : Word)
  /-- `ST [rB+offs16], rA`, encoding `F 1 rA rB offs16` (R216). -/
  | stBased (rA : RegNum) (rB : RegNum) (offs16 : Word)
  -- System (spec/47_system.md)
  /-- `CCB [rB+offs16]`, encoding `F 8 x rB offs16` (R532). -/
  | ccbBased (rB : RegNum) (offs16 : Word)
  -- Control transfer (spec/45_control.md)
  /-- `JZ offs16`, encoding `9 0 0 x offs16` (R475). -/
  | jz (offs16 : Word)
  /-- `JNZ offs16`, encoding `9 1 0 x offs16` (R476). -/
  | jnz (offs16 : Word)
  /-- `JC offs16`, encoding `9 2 0 x offs16` (R477). -/
  | jc (offs16 : Word)
  /-- `JNC offs16`, encoding `9 3 0 x offs16` (R478). -/
  | jnc (offs16 : Word)
  /-- `JS offs16`, encoding `9 4 0 x offs16` (R479). -/
  | js (offs16 : Word)
  /-- `JNS offs16`, encoding `9 5 0 x offs16` (R480). -/
  | jns (offs16 : Word)
  /-- `JO offs16`, encoding `9 6 0 x offs16` (R481). -/
  | jo (offs16 : Word)
  /-- `JNO offs16`, encoding `9 7 0 x offs16` (R482). -/
  | jno (offs16 : Word)
  /-- `JGE offs16`, encoding `9 8 0 x offs16` (R483). -/
  | jge (offs16 : Word)
  /-- `JLT offs16`, encoding `9 9 0 x offs16` (R484). -/
  | jlt (offs16 : Word)
  /-- `JGT offs16`, encoding `9 A 0 x offs16` (R485). -/
  | jgt (offs16 : Word)
  /-- `JLE offs16`, encoding `9 B 0 x offs16` (R486). -/
  | jle (offs16 : Word)
  /-- `JAT offs16`, encoding `9 C 0 x offs16` (R487). -/
  | jat (offs16 : Word)
  /-- `JBE offs16`, encoding `9 D 0 x offs16` (R488). -/
  | jbe (offs16 : Word)
  /-- `JMP offs16`, encoding `9 E 0 x offs16` (R489). -/
  | jmp (offs16 : Word)
  /-- `JMPA offs16`, encoding `9 F 0 x offs16` (R490). -/
  | jmpa (offs16 : Word)
  /-- `CALL offs16`, encoding `A 0 x x offs16` (R472). -/
  | call (offs16 : Word)
  /-- `CALLA offs16`, encoding `A 1 x x offs16` (R473). -/
  | calla (offs16 : Word)
  -- System (spec/47_system.md)
  /-- `IRC offs16`, encoding `A 8 0 x offs16` (R533). -/
  | irc (offs16 : Word)
  -- Second names: stores (spec/40_move_store.md)
  /-- `STS [rB], rA`, encoding `7 0 rA rB` (R213). -/
  | stsInd (rA : RegNum) (rB : RegNum)
  /-- `STS [rB+offs16], rA`, encoding `F 0 rA rB offs16` (R215). -/
  | stsBased (rA : RegNum) (rB : RegNum) (offs16 : Word)
  -- Second names: jumps (spec/45_control.md)
  /-- `JEQ offs16`, encoding `9 0 0 x offs16` (R475). -/
  | jeq (offs16 : Word)
  /-- `JNE offs16`, encoding `9 1 0 x offs16` (R476). -/
  | jne (offs16 : Word)
  /-- `JBT offs16`, encoding `9 2 0 x offs16` (R477). -/
  | jbt (offs16 : Word)
  /-- `JAE offs16`, encoding `9 3 0 x offs16` (R478). -/
  | jae (offs16 : Word)
  deriving DecidableEq, Repr

/-- The first listed name of an encoding: a second name stands for exactly the same encoding (30_encoding.md R132). -/
def Instr.primary : Instr → Instr
  | .stsInd rA rB => .stbInd rA rB
  | .stsBased rA rB offs16 => .stbBased rA rB offs16
  | .jeq offs16 => .jz offs16
  | .jne offs16 => .jnz offs16
  | .jbt offs16 => .jc offs16
  | .jae offs16 => .jnc offs16
  | i => i

end Sys2Proof
end

