-- ==== Sys2Proof/Decode.lean ====
section
/-! DEFINITION. Decode.lean: nibbles, halves and bytes of a halfword; the decoder, total on any bytes (30_encoding.md R100
to R123); and after it the encoder, written from the same tables. Which printed nibble is the most significant and
the byte order of the instruction stream are the spec's decisions D1 and D2 (UNVERIFIED, unsafe if wrong:
notes/assumptions/1.md, notes/assumptions/2.md).
-/
namespace Sys2Proof

/-- The halfword whose more significant byte is `hi` (20_memory.md R64, R65). -/
def halfword (hi lo : Byte) : Word := hi ++ lo

/-- `v[15:8]`, the byte at the lower address (20_memory.md R64). -/
def hiByte (w : Word) : Byte := w.extractLsb' 8 8

/-- `v[7:0]` (20_memory.md R63, R64). -/
def loByte (w : Word) : Byte := w.extractLsb' 0 8

/-- N0 = w[15:12] (30_encoding.md R101; D1). -/
def nibble0 (w : Word) : Nibble := w.extractLsb' 12 4

/-- N1 = w[11:8] (30_encoding.md R101). -/
def nibble1 (w : Word) : Nibble := w.extractLsb' 8 4

/-- N2 = w[7:4] (30_encoding.md R101). -/
def nibble2 (w : Word) : Nibble := w.extractLsb' 4 4

/-- N3 = w[3:0] (30_encoding.md R101). -/
def nibble3 (w : Word) : Nibble := w.extractLsb' 0 4

/-- The opcode halfword written N0 N1 N2 N3 (30_encoding.md R101). -/
def ofNibbles (n0 n1 n2 n3 : Nibble) : Word := n0 ++ n1 ++ n2 ++ n3

/-- An instruction is long exactly when bit 15 of its opcode halfword is set (30_encoding.md R102). -/
def isLong (w : Word) : Bool := w.getLsbD 15

/-- Group N0 = 0 (30_encoding.md R118). -/
def decodeMisc (n1 n2 n3 : Nibble) : Option Instr :=
  match n1.toNat with
  | 0 => some (.nop)
  | 1 =>
    match n3.toNat with
    | 0 => some (.jmpi n2)
    | 1 => some (.calli n2)
    | _ => none
  | 2 =>
    match n3.toNat with
    | 0 => some .ret
    | 1 => some .reti
    | _ => none
  | 3 =>
    match n3.toNat with
    | 0 => some (.not n2)
    | 1 => some (.neg n2)
    | 2 => some (.inc n2)
    | 3 => some (.dec n2)
    | _ => none
  | 4 =>
    match n3.toNat with
    | 0 => some (.push n2)
    | 1 => some .pushf
    | 2 => some (.pop n2)
    | 3 => some .popf
    | _ => none
  | 5 =>
    match n3.toNat with
    | 0 => some .clc
    | 1 => some .stc
    | 2 => some .cli
    | 3 => some .sti
    | _ => none
  | 8 => some (.mulu n2 n3)
  | 9 => some (.muls n2 n3)
  | 10 => some (.mhr n2 n3)
  | _ => none

/-- Group N0 = 1 (30_encoding.md R107). -/
def decodeAluImm4 (n1 n2 n3 : Nibble) : Option Instr :=
  match n1.toNat with
  | 0 => some (.movImm4 n2 n3)
  | 1 => some (.addImm4 n2 n3)
  | 2 => some (.adcImm4 n2 n3)
  | 3 => some (.subImm4 n2 n3)
  | 4 => some (.sbbImm4 n2 n3)
  | 5 => some (.andImm4 n2 n3)
  | 6 => some (.orImm4 n2 n3)
  | 7 => some (.xorImm4 n2 n3)
  | 8 => some (.cmpImm4 n2 n3)
  | 9 => some (.shlImm4 n2 n3)
  | 10 => some (.shrImm4 n2 n3)
  | 11 => some (.asrImm4 n2 n3)
  | 12 => some (.rorImm4 n2 n3)
  | 13 => some (.rlcImm4 n2 n3)
  | 14 => some (.rrcImm4 n2 n3)
  | _ => none

/-- Group N0 = 2 (30_encoding.md R108). -/
def decodeAluReg (n1 n2 n3 : Nibble) : Option Instr :=
  match n1.toNat with
  | 0 => some (.movReg n2 n3)
  | 1 => some (.addReg n2 n3)
  | 2 => some (.adcReg n2 n3)
  | 3 => some (.subReg n2 n3)
  | 4 => some (.sbbReg n2 n3)
  | 5 => some (.andReg n2 n3)
  | 6 => some (.orReg n2 n3)
  | 7 => some (.xorReg n2 n3)
  | 8 => some (.cmpReg n2 n3)
  | 9 => some (.shlReg n2 n3)
  | 10 => some (.shrReg n2 n3)
  | 11 => some (.asrReg n2 n3)
  | 12 => some (.rorReg n2 n3)
  | 13 => some (.rlcReg n2 n3)
  | 14 => some (.rrcReg n2 n3)
  | _ => none

/-- Group N0 = 3 (30_encoding.md R109). -/
def decodeAluXaf (n1 n2 : Nibble) : Option Instr :=
  match n1.toNat with
  | 0 => some (.movXaf n2)
  | 1 => some (.addXaf n2)
  | 2 => some (.adcXaf n2)
  | 3 => some (.subXaf n2)
  | 4 => some (.sbbXaf n2)
  | 5 => some (.andXaf n2)
  | 6 => some (.orXaf n2)
  | 7 => some (.xorXaf n2)
  | 8 => some (.cmpXaf n2)
  | 9 => some (.shlXaf n2)
  | 10 => some (.shrXaf n2)
  | 11 => some (.asrXaf n2)
  | 12 => some (.rorXaf n2)
  | 13 => some (.rlcXaf n2)
  | 14 => some (.rrcXaf n2)
  | _ => none

/-- Group N0 = 4 (30_encoding.md R110). -/
def decodeAluByteInd (n1 n2 n3 : Nibble) : Option Instr :=
  match n1.toNat with
  | 0 => some (.movbInd n2 n3)
  | 1 => some (.addbInd n2 n3)
  | 2 => some (.adcbInd n2 n3)
  | 3 => some (.subbInd n2 n3)
  | 4 => some (.sbbbInd n2 n3)
  | 5 => some (.andbInd n2 n3)
  | 6 => some (.orbInd n2 n3)
  | 7 => some (.xorbInd n2 n3)
  | 8 => some (.cmpbInd n2 n3)
  | 9 => some (.shlbInd n2 n3)
  | 10 => some (.shrbInd n2 n3)
  | 11 => some (.asrbInd n2 n3)
  | 12 => some (.rorbInd n2 n3)
  | 13 => some (.rlcbInd n2 n3)
  | 14 => some (.rrcbInd n2 n3)
  | _ => none

/-- Group N0 = 5 (30_encoding.md R111). -/
def decodeAluSByteInd (n1 n2 n3 : Nibble) : Option Instr :=
  match n1.toNat with
  | 0 => some (.movsInd n2 n3)
  | 1 => some (.addsInd n2 n3)
  | 2 => some (.adcsInd n2 n3)
  | 3 => some (.subsInd n2 n3)
  | 4 => some (.sbbsInd n2 n3)
  | 5 => some (.andsInd n2 n3)
  | 6 => some (.orsInd n2 n3)
  | 7 => some (.xorsInd n2 n3)
  | 8 => some (.cmpsInd n2 n3)
  | _ => none

/-- Group N0 = 6 (30_encoding.md R112). -/
def decodeAluWordInd (n1 n2 n3 : Nibble) : Option Instr :=
  match n1.toNat with
  | 0 => some (.movInd n2 n3)
  | 1 => some (.addInd n2 n3)
  | 2 => some (.adcInd n2 n3)
  | 3 => some (.subInd n2 n3)
  | 4 => some (.sbbInd n2 n3)
  | 5 => some (.andInd n2 n3)
  | 6 => some (.orInd n2 n3)
  | 7 => some (.xorInd n2 n3)
  | 8 => some (.cmpInd n2 n3)
  | 9 => some (.shlInd n2 n3)
  | 10 => some (.shrInd n2 n3)
  | 11 => some (.asrInd n2 n3)
  | 12 => some (.rorInd n2 n3)
  | 13 => some (.rlcInd n2 n3)
  | 14 => some (.rrcInd n2 n3)
  | _ => none

/-- Group N0 = 7 (30_encoding.md R119). -/
def decodeStoreInd (n1 n2 n3 : Nibble) : Option Instr :=
  match n1.toNat with
  | 0 => some (.stbInd n2 n3)
  | 1 => some (.stInd n2 n3)
  | 8 => some (.ccbInd n3)
  | _ => none

/-- Group N0 = 8 (30_encoding.md R113). -/
def decodeAluImm16 (n1 n2 : Nibble) (imm : Word) : Option Instr :=
  match n1.toNat with
  | 0 => some (.movImm16 n2 imm)
  | 1 => some (.addImm16 n2 imm)
  | 2 => some (.adcImm16 n2 imm)
  | 3 => some (.subImm16 n2 imm)
  | 4 => some (.sbbImm16 n2 imm)
  | 5 => some (.andImm16 n2 imm)
  | 6 => some (.orImm16 n2 imm)
  | 7 => some (.xorImm16 n2 imm)
  | 8 => some (.cmpImm16 n2 imm)
  | 9 => some (.shlImm16 n2 imm)
  | 10 => some (.shrImm16 n2 imm)
  | 11 => some (.asrImm16 n2 imm)
  | 12 => some (.rorImm16 n2 imm)
  | 13 => some (.rlcImm16 n2 imm)
  | 14 => some (.rrcImm16 n2 imm)
  | _ => none

/-- Group N0 = 9 (30_encoding.md R119). -/
def decodeJump (n1 n2 : Nibble) (imm : Word) : Option Instr :=
  if n2 = 0 then
    match n1.toNat with
    | 0 => some (.jz imm)
    | 1 => some (.jnz imm)
    | 2 => some (.jc imm)
    | 3 => some (.jnc imm)
    | 4 => some (.js imm)
    | 5 => some (.jns imm)
    | 6 => some (.jo imm)
    | 7 => some (.jno imm)
    | 8 => some (.jge imm)
    | 9 => some (.jlt imm)
    | 10 => some (.jgt imm)
    | 11 => some (.jle imm)
    | 12 => some (.jat imm)
    | 13 => some (.jbe imm)
    | 14 => some (.jmp imm)
    | 15 => some (.jmpa imm)
    | _ => none
  else none

/-- Group N0 = A (30_encoding.md R119). -/
def decodeCall (n1 n2 : Nibble) (imm : Word) : Option Instr :=
  match n1.toNat with
  | 0 => some (.call imm)
  | 1 => some (.calla imm)
  | 8 => if n2 = 0 then some (.irc imm) else none
  | _ => none

/-- Group N0 = B (30_encoding.md R114). -/
def decodeAluRegImm16 (n1 n2 n3 : Nibble) (imm : Word) : Option Instr :=
  match n1.toNat with
  | 1 => some (.addRegImm16 n2 n3 imm)
  | 2 => some (.adcRegImm16 n2 n3 imm)
  | 3 => some (.subRegImm16 n2 n3 imm)
  | 4 => some (.sbbRegImm16 n2 n3 imm)
  | 5 => some (.andRegImm16 n2 n3 imm)
  | 6 => some (.orRegImm16 n2 n3 imm)
  | 7 => some (.xorRegImm16 n2 n3 imm)
  | 8 => some (.cmpRegImm16 n2 n3 imm)
  | 9 => some (.shlRegImm16 n2 n3 imm)
  | 10 => some (.shrRegImm16 n2 n3 imm)
  | 11 => some (.asrRegImm16 n2 n3 imm)
  | 12 => some (.rorRegImm16 n2 n3 imm)
  | 13 => some (.rlcRegImm16 n2 n3 imm)
  | 14 => some (.rrcRegImm16 n2 n3 imm)
  | _ => none

/-- Group N0 = C (30_encoding.md R115). -/
def decodeAluByteBased (n1 n2 n3 : Nibble) (imm : Word) : Option Instr :=
  match n1.toNat with
  | 0 => some (.movbBased n2 n3 imm)
  | 1 => some (.addbBased n2 n3 imm)
  | 2 => some (.adcbBased n2 n3 imm)
  | 3 => some (.subbBased n2 n3 imm)
  | 4 => some (.sbbbBased n2 n3 imm)
  | 5 => some (.andbBased n2 n3 imm)
  | 6 => some (.orbBased n2 n3 imm)
  | 7 => some (.xorbBased n2 n3 imm)
  | 8 => some (.cmpbBased n2 n3 imm)
  | 9 => some (.shlbBased n2 n3 imm)
  | 10 => some (.shrbBased n2 n3 imm)
  | 11 => some (.asrbBased n2 n3 imm)
  | 12 => some (.rorbBased n2 n3 imm)
  | 13 => some (.rlcbBased n2 n3 imm)
  | 14 => some (.rrcbBased n2 n3 imm)
  | _ => none

/-- Group N0 = D (30_encoding.md R116). -/
def decodeAluSByteBased (n1 n2 n3 : Nibble) (imm : Word) : Option Instr :=
  match n1.toNat with
  | 0 => some (.movsBased n2 n3 imm)
  | 1 => some (.addsBased n2 n3 imm)
  | 2 => some (.adcsBased n2 n3 imm)
  | 3 => some (.subsBased n2 n3 imm)
  | 4 => some (.sbbsBased n2 n3 imm)
  | 5 => some (.andsBased n2 n3 imm)
  | 6 => some (.orsBased n2 n3 imm)
  | 7 => some (.xorsBased n2 n3 imm)
  | 8 => some (.cmpsBased n2 n3 imm)
  | _ => none

/-- Group N0 = E (30_encoding.md R117). -/
def decodeAluWordBased (n1 n2 n3 : Nibble) (imm : Word) : Option Instr :=
  match n1.toNat with
  | 0 => some (.movBased n2 n3 imm)
  | 1 => some (.addBased n2 n3 imm)
  | 2 => some (.adcBased n2 n3 imm)
  | 3 => some (.subBased n2 n3 imm)
  | 4 => some (.sbbBased n2 n3 imm)
  | 5 => some (.andBased n2 n3 imm)
  | 6 => some (.orBased n2 n3 imm)
  | 7 => some (.xorBased n2 n3 imm)
  | 8 => some (.cmpBased n2 n3 imm)
  | 9 => some (.shlBased n2 n3 imm)
  | 10 => some (.shrBased n2 n3 imm)
  | 11 => some (.asrBased n2 n3 imm)
  | 12 => some (.rorBased n2 n3 imm)
  | 13 => some (.rlcBased n2 n3 imm)
  | 14 => some (.rrcBased n2 n3 imm)
  | _ => none

/-- Group N0 = F (30_encoding.md R119). -/
def decodeStoreBased (n1 n2 n3 : Nibble) (imm : Word) : Option Instr :=
  match n1.toNat with
  | 0 => some (.stbBased n2 n3 imm)
  | 1 => some (.stBased n2 n3 imm)
  | 8 => some (.ccbBased n3 imm)
  | _ => none

/-- The instruction that an opcode halfword and, for a long instruction, the halfword after it stand for; none for an
unassigned opcode (30_encoding.md R121). A short instruction does not look at `imm`. -/
def decodeWords (w imm : Word) : Option Instr :=
  let n1 := nibble1 w
  let n2 := nibble2 w
  let n3 := nibble3 w
  match (nibble0 w).toNat with
  | 0 => decodeMisc n1 n2 n3
  | 1 => decodeAluImm4 n1 n2 n3
  | 2 => decodeAluReg n1 n2 n3
  | 3 => decodeAluXaf n1 n2
  | 4 => decodeAluByteInd n1 n2 n3
  | 5 => decodeAluSByteInd n1 n2 n3
  | 6 => decodeAluWordInd n1 n2 n3
  | 7 => decodeStoreInd n1 n2 n3
  | 8 => decodeAluImm16 n1 n2 imm
  | 9 => decodeJump n1 n2 imm
  | 10 => decodeCall n1 n2 imm
  | 11 => decodeAluRegImm16 n1 n2 n3 imm
  | 12 => decodeAluByteBased n1 n2 n3 imm
  | 13 => decodeAluSByteBased n1 n2 n3 imm
  | 14 => decodeAluWordBased n1 n2 n3 imm
  | 15 => decodeStoreBased n1 n2 n3 imm
  | _ => none

/-- Why bytes are no instruction. -/
inductive DecodeError where
  /-- the bytes end before the instruction does -/
  | truncated
  /-- the opcode halfword is in no row of the table (30_encoding.md R121) -/
  | unassignedOpcode (w : Word)
  deriving DecidableEq, Repr

/-- What the decoder makes of a list of bytes: an instruction and the bytes after it, or a reason. -/
inductive DecodeResult where
  | ok (i : Instr) (rest : List Byte)
  | error (e : DecodeError)
  deriving DecidableEq, Repr

/-- The decoder: it reads the opcode halfword, and a second halfword only when bit 15 is set (30_encoding.md R102). An
unassigned opcode is reported before the second halfword is looked at, since its length is undefined (R121). -/
def decodeBytes : List Byte → DecodeResult
  | b0 :: b1 :: rest =>
    let w := halfword b0 b1
    match decodeWords w 0 with
    | none => .error (.unassignedOpcode w)
    | some i =>
      if isLong w then
        match rest with
        | b2 :: b3 :: rest' =>
          match decodeWords w (halfword b2 b3) with
          | some j => .ok j rest'
          | none => .error (.unassignedOpcode w)
        | _ => .error .truncated
      else .ok i rest
  | _ => .error .truncated

/-- The halfwords of an instruction, an unexamined nibble written 0 (30_encoding.md R105, R118, R119). -/
def encode : Instr → List Word
  | .movImm4 rA imm4 => [ofNibbles 0x1 0x0 rA imm4]
  | .movReg rA rB => [ofNibbles 0x2 0x0 rA rB]
  | .movXaf rA => [ofNibbles 0x3 0x0 rA 0x0]
  | .movbInd rA rB => [ofNibbles 0x4 0x0 rA rB]
  | .movsInd rA rB => [ofNibbles 0x5 0x0 rA rB]
  | .movInd rA rB => [ofNibbles 0x6 0x0 rA rB]
  | .movImm16 rA imm16 => [ofNibbles 0x8 0x0 rA 0x0, imm16]
  | .movbBased rA rB offs16 => [ofNibbles 0xC 0x0 rA rB, offs16]
  | .movsBased rA rB offs16 => [ofNibbles 0xD 0x0 rA rB, offs16]
  | .movBased rA rB offs16 => [ofNibbles 0xE 0x0 rA rB, offs16]
  | .addImm4 rA imm4 => [ofNibbles 0x1 0x1 rA imm4]
  | .addReg rA rB => [ofNibbles 0x2 0x1 rA rB]
  | .addXaf rA => [ofNibbles 0x3 0x1 rA 0x0]
  | .addbInd rA rB => [ofNibbles 0x4 0x1 rA rB]
  | .addsInd rA rB => [ofNibbles 0x5 0x1 rA rB]
  | .addInd rA rB => [ofNibbles 0x6 0x1 rA rB]
  | .addImm16 rA imm16 => [ofNibbles 0x8 0x1 rA 0x0, imm16]
  | .addRegImm16 rA rB imm16 => [ofNibbles 0xB 0x1 rA rB, imm16]
  | .addbBased rA rB offs16 => [ofNibbles 0xC 0x1 rA rB, offs16]
  | .addsBased rA rB offs16 => [ofNibbles 0xD 0x1 rA rB, offs16]
  | .addBased rA rB offs16 => [ofNibbles 0xE 0x1 rA rB, offs16]
  | .adcImm4 rA imm4 => [ofNibbles 0x1 0x2 rA imm4]
  | .adcReg rA rB => [ofNibbles 0x2 0x2 rA rB]
  | .adcXaf rA => [ofNibbles 0x3 0x2 rA 0x0]
  | .adcbInd rA rB => [ofNibbles 0x4 0x2 rA rB]
  | .adcsInd rA rB => [ofNibbles 0x5 0x2 rA rB]
  | .adcInd rA rB => [ofNibbles 0x6 0x2 rA rB]
  | .adcImm16 rA imm16 => [ofNibbles 0x8 0x2 rA 0x0, imm16]
  | .adcRegImm16 rA rB imm16 => [ofNibbles 0xB 0x2 rA rB, imm16]
  | .adcbBased rA rB offs16 => [ofNibbles 0xC 0x2 rA rB, offs16]
  | .adcsBased rA rB offs16 => [ofNibbles 0xD 0x2 rA rB, offs16]
  | .adcBased rA rB offs16 => [ofNibbles 0xE 0x2 rA rB, offs16]
  | .cmpImm4 rA imm4 => [ofNibbles 0x1 0x8 rA imm4]
  | .cmpReg rA rB => [ofNibbles 0x2 0x8 rA rB]
  | .cmpXaf rA => [ofNibbles 0x3 0x8 rA 0x0]
  | .cmpbInd rA rB => [ofNibbles 0x4 0x8 rA rB]
  | .cmpsInd rA rB => [ofNibbles 0x5 0x8 rA rB]
  | .cmpInd rA rB => [ofNibbles 0x6 0x8 rA rB]
  | .cmpImm16 rA imm16 => [ofNibbles 0x8 0x8 rA 0x0, imm16]
  | .cmpRegImm16 rA rB imm16 => [ofNibbles 0xB 0x8 rA rB, imm16]
  | .cmpbBased rA rB offs16 => [ofNibbles 0xC 0x8 rA rB, offs16]
  | .cmpsBased rA rB offs16 => [ofNibbles 0xD 0x8 rA rB, offs16]
  | .cmpBased rA rB offs16 => [ofNibbles 0xE 0x8 rA rB, offs16]
  | .subImm4 rA imm4 => [ofNibbles 0x1 0x3 rA imm4]
  | .subReg rA rB => [ofNibbles 0x2 0x3 rA rB]
  | .subXaf rA => [ofNibbles 0x3 0x3 rA 0x0]
  | .subbInd rA rB => [ofNibbles 0x4 0x3 rA rB]
  | .subsInd rA rB => [ofNibbles 0x5 0x3 rA rB]
  | .subInd rA rB => [ofNibbles 0x6 0x3 rA rB]
  | .subImm16 rA imm16 => [ofNibbles 0x8 0x3 rA 0x0, imm16]
  | .subRegImm16 rA rB imm16 => [ofNibbles 0xB 0x3 rA rB, imm16]
  | .subbBased rA rB offs16 => [ofNibbles 0xC 0x3 rA rB, offs16]
  | .subsBased rA rB offs16 => [ofNibbles 0xD 0x3 rA rB, offs16]
  | .subBased rA rB offs16 => [ofNibbles 0xE 0x3 rA rB, offs16]
  | .sbbImm4 rA imm4 => [ofNibbles 0x1 0x4 rA imm4]
  | .sbbReg rA rB => [ofNibbles 0x2 0x4 rA rB]
  | .sbbXaf rA => [ofNibbles 0x3 0x4 rA 0x0]
  | .sbbbInd rA rB => [ofNibbles 0x4 0x4 rA rB]
  | .sbbsInd rA rB => [ofNibbles 0x5 0x4 rA rB]
  | .sbbInd rA rB => [ofNibbles 0x6 0x4 rA rB]
  | .sbbImm16 rA imm16 => [ofNibbles 0x8 0x4 rA 0x0, imm16]
  | .sbbRegImm16 rA rB imm16 => [ofNibbles 0xB 0x4 rA rB, imm16]
  | .sbbbBased rA rB offs16 => [ofNibbles 0xC 0x4 rA rB, offs16]
  | .sbbsBased rA rB offs16 => [ofNibbles 0xD 0x4 rA rB, offs16]
  | .sbbBased rA rB offs16 => [ofNibbles 0xE 0x4 rA rB, offs16]
  | .andImm4 rA imm4 => [ofNibbles 0x1 0x5 rA imm4]
  | .andReg rA rB => [ofNibbles 0x2 0x5 rA rB]
  | .andXaf rA => [ofNibbles 0x3 0x5 rA 0x0]
  | .andbInd rA rB => [ofNibbles 0x4 0x5 rA rB]
  | .andsInd rA rB => [ofNibbles 0x5 0x5 rA rB]
  | .andInd rA rB => [ofNibbles 0x6 0x5 rA rB]
  | .andImm16 rA imm16 => [ofNibbles 0x8 0x5 rA 0x0, imm16]
  | .andRegImm16 rA rB imm16 => [ofNibbles 0xB 0x5 rA rB, imm16]
  | .andbBased rA rB offs16 => [ofNibbles 0xC 0x5 rA rB, offs16]
  | .andsBased rA rB offs16 => [ofNibbles 0xD 0x5 rA rB, offs16]
  | .andBased rA rB offs16 => [ofNibbles 0xE 0x5 rA rB, offs16]
  | .orImm4 rA imm4 => [ofNibbles 0x1 0x6 rA imm4]
  | .orReg rA rB => [ofNibbles 0x2 0x6 rA rB]
  | .orXaf rA => [ofNibbles 0x3 0x6 rA 0x0]
  | .orbInd rA rB => [ofNibbles 0x4 0x6 rA rB]
  | .orsInd rA rB => [ofNibbles 0x5 0x6 rA rB]
  | .orInd rA rB => [ofNibbles 0x6 0x6 rA rB]
  | .orImm16 rA imm16 => [ofNibbles 0x8 0x6 rA 0x0, imm16]
  | .orRegImm16 rA rB imm16 => [ofNibbles 0xB 0x6 rA rB, imm16]
  | .orbBased rA rB offs16 => [ofNibbles 0xC 0x6 rA rB, offs16]
  | .orsBased rA rB offs16 => [ofNibbles 0xD 0x6 rA rB, offs16]
  | .orBased rA rB offs16 => [ofNibbles 0xE 0x6 rA rB, offs16]
  | .xorImm4 rA imm4 => [ofNibbles 0x1 0x7 rA imm4]
  | .xorReg rA rB => [ofNibbles 0x2 0x7 rA rB]
  | .xorXaf rA => [ofNibbles 0x3 0x7 rA 0x0]
  | .xorbInd rA rB => [ofNibbles 0x4 0x7 rA rB]
  | .xorsInd rA rB => [ofNibbles 0x5 0x7 rA rB]
  | .xorInd rA rB => [ofNibbles 0x6 0x7 rA rB]
  | .xorImm16 rA imm16 => [ofNibbles 0x8 0x7 rA 0x0, imm16]
  | .xorRegImm16 rA rB imm16 => [ofNibbles 0xB 0x7 rA rB, imm16]
  | .xorbBased rA rB offs16 => [ofNibbles 0xC 0x7 rA rB, offs16]
  | .xorsBased rA rB offs16 => [ofNibbles 0xD 0x7 rA rB, offs16]
  | .xorBased rA rB offs16 => [ofNibbles 0xE 0x7 rA rB, offs16]
  | .asrImm4 rA imm4 => [ofNibbles 0x1 0xB rA imm4]
  | .asrReg rA rB => [ofNibbles 0x2 0xB rA rB]
  | .asrXaf rA => [ofNibbles 0x3 0xB rA 0x0]
  | .asrbInd rA rB => [ofNibbles 0x4 0xB rA rB]
  | .asrInd rA rB => [ofNibbles 0x6 0xB rA rB]
  | .asrImm16 rA imm16 => [ofNibbles 0x8 0xB rA 0x0, imm16]
  | .asrRegImm16 rA rB imm16 => [ofNibbles 0xB 0xB rA rB, imm16]
  | .asrbBased rA rB offs16 => [ofNibbles 0xC 0xB rA rB, offs16]
  | .asrBased rA rB offs16 => [ofNibbles 0xE 0xB rA rB, offs16]
  | .rlcImm4 rA imm4 => [ofNibbles 0x1 0xD rA imm4]
  | .rlcReg rA rB => [ofNibbles 0x2 0xD rA rB]
  | .rlcXaf rA => [ofNibbles 0x3 0xD rA 0x0]
  | .rlcbInd rA rB => [ofNibbles 0x4 0xD rA rB]
  | .rlcInd rA rB => [ofNibbles 0x6 0xD rA rB]
  | .rlcImm16 rA imm16 => [ofNibbles 0x8 0xD rA 0x0, imm16]
  | .rlcRegImm16 rA rB imm16 => [ofNibbles 0xB 0xD rA rB, imm16]
  | .rlcbBased rA rB offs16 => [ofNibbles 0xC 0xD rA rB, offs16]
  | .rlcBased rA rB offs16 => [ofNibbles 0xE 0xD rA rB, offs16]
  | .rorImm4 rA imm4 => [ofNibbles 0x1 0xC rA imm4]
  | .rorReg rA rB => [ofNibbles 0x2 0xC rA rB]
  | .rorXaf rA => [ofNibbles 0x3 0xC rA 0x0]
  | .rorbInd rA rB => [ofNibbles 0x4 0xC rA rB]
  | .rorInd rA rB => [ofNibbles 0x6 0xC rA rB]
  | .rorImm16 rA imm16 => [ofNibbles 0x8 0xC rA 0x0, imm16]
  | .rorRegImm16 rA rB imm16 => [ofNibbles 0xB 0xC rA rB, imm16]
  | .rorbBased rA rB offs16 => [ofNibbles 0xC 0xC rA rB, offs16]
  | .rorBased rA rB offs16 => [ofNibbles 0xE 0xC rA rB, offs16]
  | .rrcImm4 rA imm4 => [ofNibbles 0x1 0xE rA imm4]
  | .rrcReg rA rB => [ofNibbles 0x2 0xE rA rB]
  | .rrcXaf rA => [ofNibbles 0x3 0xE rA 0x0]
  | .rrcbInd rA rB => [ofNibbles 0x4 0xE rA rB]
  | .rrcInd rA rB => [ofNibbles 0x6 0xE rA rB]
  | .rrcImm16 rA imm16 => [ofNibbles 0x8 0xE rA 0x0, imm16]
  | .rrcRegImm16 rA rB imm16 => [ofNibbles 0xB 0xE rA rB, imm16]
  | .rrcbBased rA rB offs16 => [ofNibbles 0xC 0xE rA rB, offs16]
  | .rrcBased rA rB offs16 => [ofNibbles 0xE 0xE rA rB, offs16]
  | .shlImm4 rA imm4 => [ofNibbles 0x1 0x9 rA imm4]
  | .shlReg rA rB => [ofNibbles 0x2 0x9 rA rB]
  | .shlXaf rA => [ofNibbles 0x3 0x9 rA 0x0]
  | .shlbInd rA rB => [ofNibbles 0x4 0x9 rA rB]
  | .shlInd rA rB => [ofNibbles 0x6 0x9 rA rB]
  | .shlImm16 rA imm16 => [ofNibbles 0x8 0x9 rA 0x0, imm16]
  | .shlRegImm16 rA rB imm16 => [ofNibbles 0xB 0x9 rA rB, imm16]
  | .shlbBased rA rB offs16 => [ofNibbles 0xC 0x9 rA rB, offs16]
  | .shlBased rA rB offs16 => [ofNibbles 0xE 0x9 rA rB, offs16]
  | .shrImm4 rA imm4 => [ofNibbles 0x1 0xA rA imm4]
  | .shrReg rA rB => [ofNibbles 0x2 0xA rA rB]
  | .shrXaf rA => [ofNibbles 0x3 0xA rA 0x0]
  | .shrbInd rA rB => [ofNibbles 0x4 0xA rA rB]
  | .shrInd rA rB => [ofNibbles 0x6 0xA rA rB]
  | .shrImm16 rA imm16 => [ofNibbles 0x8 0xA rA 0x0, imm16]
  | .shrRegImm16 rA rB imm16 => [ofNibbles 0xB 0xA rA rB, imm16]
  | .shrbBased rA rB offs16 => [ofNibbles 0xC 0xA rA rB, offs16]
  | .shrBased rA rB offs16 => [ofNibbles 0xE 0xA rA rB, offs16]
  | .nop => [ofNibbles 0x0 0x0 0x0 0x0]
  | .jmpi rA => [ofNibbles 0x0 0x1 rA 0x0]
  | .calli rA => [ofNibbles 0x0 0x1 rA 0x1]
  | .ret => [ofNibbles 0x0 0x2 0x0 0x0]
  | .reti => [ofNibbles 0x0 0x2 0x0 0x1]
  | .not rA => [ofNibbles 0x0 0x3 rA 0x0]
  | .neg rA => [ofNibbles 0x0 0x3 rA 0x1]
  | .inc rA => [ofNibbles 0x0 0x3 rA 0x2]
  | .dec rA => [ofNibbles 0x0 0x3 rA 0x3]
  | .push rA => [ofNibbles 0x0 0x4 rA 0x0]
  | .pushf => [ofNibbles 0x0 0x4 0x0 0x1]
  | .pop rA => [ofNibbles 0x0 0x4 rA 0x2]
  | .popf => [ofNibbles 0x0 0x4 0x0 0x3]
  | .clc => [ofNibbles 0x0 0x5 0x0 0x0]
  | .stc => [ofNibbles 0x0 0x5 0x0 0x1]
  | .cli => [ofNibbles 0x0 0x5 0x0 0x2]
  | .sti => [ofNibbles 0x0 0x5 0x0 0x3]
  | .mulu rA rB => [ofNibbles 0x0 0x8 rA rB]
  | .muls rA rB => [ofNibbles 0x0 0x9 rA rB]
  | .mhr rA hrB => [ofNibbles 0x0 0xA rA hrB]
  | .stbInd rA rB => [ofNibbles 0x7 0x0 rA rB]
  | .stInd rA rB => [ofNibbles 0x7 0x1 rA rB]
  | .ccbInd rB => [ofNibbles 0x7 0x8 0x0 rB]
  | .stbBased rA rB offs16 => [ofNibbles 0xF 0x0 rA rB, offs16]
  | .stBased rA rB offs16 => [ofNibbles 0xF 0x1 rA rB, offs16]
  | .ccbBased rB offs16 => [ofNibbles 0xF 0x8 0x0 rB, offs16]
  | .jz offs16 => [ofNibbles 0x9 0x0 0x0 0x0, offs16]
  | .jnz offs16 => [ofNibbles 0x9 0x1 0x0 0x0, offs16]
  | .jc offs16 => [ofNibbles 0x9 0x2 0x0 0x0, offs16]
  | .jnc offs16 => [ofNibbles 0x9 0x3 0x0 0x0, offs16]
  | .js offs16 => [ofNibbles 0x9 0x4 0x0 0x0, offs16]
  | .jns offs16 => [ofNibbles 0x9 0x5 0x0 0x0, offs16]
  | .jo offs16 => [ofNibbles 0x9 0x6 0x0 0x0, offs16]
  | .jno offs16 => [ofNibbles 0x9 0x7 0x0 0x0, offs16]
  | .jge offs16 => [ofNibbles 0x9 0x8 0x0 0x0, offs16]
  | .jlt offs16 => [ofNibbles 0x9 0x9 0x0 0x0, offs16]
  | .jgt offs16 => [ofNibbles 0x9 0xA 0x0 0x0, offs16]
  | .jle offs16 => [ofNibbles 0x9 0xB 0x0 0x0, offs16]
  | .jat offs16 => [ofNibbles 0x9 0xC 0x0 0x0, offs16]
  | .jbe offs16 => [ofNibbles 0x9 0xD 0x0 0x0, offs16]
  | .jmp offs16 => [ofNibbles 0x9 0xE 0x0 0x0, offs16]
  | .jmpa offs16 => [ofNibbles 0x9 0xF 0x0 0x0, offs16]
  | .call offs16 => [ofNibbles 0xA 0x0 0x0 0x0, offs16]
  | .calla offs16 => [ofNibbles 0xA 0x1 0x0 0x0, offs16]
  | .irc offs16 => [ofNibbles 0xA 0x8 0x0 0x0, offs16]
  | .stsInd rA rB => [ofNibbles 0x7 0x0 rA rB]
  | .stsBased rA rB offs16 => [ofNibbles 0xF 0x0 rA rB, offs16]
  | .jeq offs16 => [ofNibbles 0x9 0x0 0x0 0x0, offs16]
  | .jne offs16 => [ofNibbles 0x9 0x1 0x0 0x0, offs16]
  | .jbt offs16 => [ofNibbles 0x9 0x2 0x0 0x0, offs16]
  | .jae offs16 => [ofNibbles 0x9 0x3 0x0 0x0, offs16]

/-- A halfword as the two bytes in which it is stored (20_memory.md R64). -/
def wordBytes (w : Word) : List Byte := [hiByte w, loByte w]

/-- The bytes of an instruction, the first at the lowest address (20_memory.md R65). -/
def encodeBytes (i : Instr) : List Byte := (encode i).flatMap wordBytes

/-- Bits 15..0 and 31..16 of `w` read as the first and the second halfword (the numbering of spec/opcode_table.json),
only the low `nbits` bits counting. -/
def tableWords (nbits w : Nat) : Word × Word :=
  let v := w % 2 ^ nbits
  (BitVec.ofNat 16 v, BitVec.ofNat 16 (v / 65536))

/-- The instruction that the decoder reads from an instruction whose bits are `w`, bit 0 the least significant bit of
the opcode halfword, the second halfword from bit 16 on. -/
def decodeTableWord (nbits w : Nat) : Option Instr :=
  let ws := tableWords nbits w
  match decodeBytes (wordBytes ws.1 ++ wordBytes ws.2) with
  | .ok i _ => some i
  | .error _ => none

end Sys2Proof
end

