-- ==== Sys2Proof/Config.lean ====
section
/-! DEFINITION. Config.lean: the parameters that the source leaves open (00_scope.md R6), as one structure that State holds
and no step changes, with the spec's defaults; and the free value that stands for a flag the source calls
"není definován" (00_scope.md R8, UNDEF).
-/
namespace Sys2Proof.Config

/-- How a 4-bit immediate becomes 16 bits (`IMM4_EXT`, 30_encoding.md R107). -/
inductive Imm4Ext where
  | zero
  | sign
  deriving DecidableEq, Repr

/-- Whether INC and DEC leave CF alone or write the carry (`INCDEC_CF`, 41_arith.md R286, R287). -/
inductive IncDecCf where
  | preserve
  | arith
  deriving DecidableEq, Repr

/-- How a shift or rotate count is read: all 16 bits, or the bits of a mask (`SHIFT_COUNT`, 43_shift_rotate.md R380). -/
inductive ShiftCount where
  | full16
  | mask (m : Word)
  deriving DecidableEq, Repr

/-- What a 16-bit access at an odd address does (`ALIGN_POLICY`, 20_memory.md R66). -/
inductive AlignPolicy where
  | allow
  | refuse
  deriving DecidableEq, Repr

/-- What stands at a byte address (`MEM_MAP`, 00_scope.md R6). -/
inductive MemKind where
  | ram
  | rom
  | device
  deriving DecidableEq, Repr

/-- `size` bytes from `base` on, all of one kind: an entry of `MEM_MAP`. -/
structure Region where
  base : Nat
  size : Nat
  kind : MemKind
  deriving DecidableEq, Repr

/-- The parameters of 00_scope.md R6, each with the default of R6. `IRQ_VECTOR`, which has none, comes with each request
(the field irq of State). -/
structure Params where
  /-- `RESET_PC` (70_reset_and_hazards.md R701; notes/assumptions/21.md) -/
  resetPc : Word := 0x0000
  /-- `RESET_IF` (70_reset_and_hazards.md R702; notes/assumptions/21.md) -/
  resetIf : Bool := false
  /-- `IMM4_EXT` (92_eei_decisions.md D5; notes/assumptions/5.md) -/
  imm4Ext : Imm4Ext := .zero
  /-- `INCDEC_CF` (92_eei_decisions.md D7; notes/assumptions/7.md) -/
  incDecCf : IncDecCf := .preserve
  /-- `SHIFT_COUNT` (92_eei_decisions.md D8; notes/assumptions/8.md) -/
  shiftCount : ShiftCount := .full16
  /-- `ALIGN_POLICY` (92_eei_decisions.md D3; notes/assumptions/3.md) -/
  alignPolicy : AlignPolicy := .allow
  /-- `HR_COUNT`, how many hidden registers exist (92_eei_decisions.md D15; notes/assumptions/15.md) -/
  hrCount : Nat := 1
  /-- `FR_RESERVED_READ`, what PUSHF stores in the ten unnamed bits of FR (92_eei_decisions.md D11;
  notes/assumptions/11.md); only its bits 15..9 and 7..5 are used -/
  frReservedRead : Word := 0x0000
  /-- `CACHE_TRANSPARENT` (92_eei_decisions.md D16; notes/assumptions/16.md) -/
  cacheTransparent : Bool := true
  /-- `MEM_MAP`: the regions of the address space, the first that holds an address deciding; an address in none of them is
  outside the platform's map (92_eei_decisions.md D31; notes/assumptions/30.md) -/
  memMap : List Region := [{ base := 0, size := 65536, kind := .ram }]
  deriving DecidableEq, Repr

/-- Every parameter at its default. -/
def specDefaults : Params := {}

/-- The value of the n-th undefined flag bit that the machine draws (93_implementation_defined.md U1). It has no
body, so nothing can be proved of a drawn bit, nor of two draws being equal (notes/assumptions/9.md). -/
opaque freeBit : Nat → Bool

end Sys2Proof.Config
end

