-- ==== Sys2Proof/Machine/State.lean ====
section
/-! DEFINITION. Machine/State.lean: the state of the processor (10_state.md; INVENTORY.md, State), the reasons for which a
step can stop, and the state after reset (10_state.md R40; 70_reset_and_hazards.md R700 to R702).
-/
namespace Sys2Proof.Machine

/-- The six flags of FR (10_state.md R27); the other ten bits hold no state (R36). -/
structure Flags where
  /-- FR bit 0 (R28) -/
  CF : Bool
  /-- FR bit 1 (R29) -/
  AF : Bool
  /-- FR bit 2 (R31) -/
  ZF : Bool
  /-- FR bit 3 (R32) -/
  SF : Bool
  /-- FR bit 4 (R33) -/
  OF : Bool
  /-- FR bit 8 (R34) -/
  IF : Bool
  deriving DecidableEq, Repr

/-- The bytes that have a value, as pairs of an address and a byte, addresses strictly rising. An address that is not
listed has no value: neither the image nor the program has written it (70_reset_and_hazards.md R700). -/
abbrev Memory := List Host.Cell

/-- The whole state of the machine. -/
structure State where
  /-- the parameters that the platform supplies (00_scope.md R6); no step changes them -/
  params : Config.Params
  /-- R1 to R15 (10_state.md R20, R22); R0 has no storage (R21). -/
  regs : Vector Word 15
  /-- the program counter (10_state.md R25) -/
  pc : Word
  /-- the flag register FR (10_state.md R27) -/
  fr : Flags
  /-- the hidden registers that the 4-bit field of MHR can name, HR0 first (10_state.md R35); those from `HR_COUNT` on do not
  exist, and by default HR0 alone does -/
  hr : Vector Word 16
  /-- the 65536 bytes of memory (20_memory.md R60) -/
  mem : Memory
  /-- the addresses the program has written since reset, rising (20_memory.md R76) -/
  written : List Nat
  /-- what the environment drives on the interrupt input at the coming instruction boundaries, the next one first: the
  handler address IRQ_VECTOR where a request is asserted, none where it is not; past the end none
  (60_exceptions.md R601, R602) -/
  irq : List (Option Word)
  /-- the model's own: how many undefined flag bits have been drawn (93_implementation_defined.md U1) -/
  freeCount : Nat
  /-- the addresses, rising, at which CCB has cleared the valid bit of the instruction cache (10_state.md R38;
  47_system.md R531) -/
  icacheCleared : List Nat
  /-- the same for the data cache -/
  dcacheCleared : List Nat
  deriving DecidableEq, Repr

/-- Why the machine stops although its instruction has a meaning. -/
inductive Fault where
  /-- Raised by a load, a pop or a fetch of a byte that neither the image nor the program has written: no document gives
  it a value (70_reset_and_hazards.md R700; 93_implementation_defined.md U18). Safe: hardware goes on with some byte. -/
  | unwrittenMemory (a : Word)
  deriving DecidableEq, Repr

/-- Situations that the spec gives no meaning. -/
inductive Refusal where
  /-- Raised by the dispatcher for an instruction without a meaning in this model (none at present). Safe. -/
  | notModelled (mnemonic : String)
  /-- Raised by the fetch of an opcode halfword that no row of the table matches (30_encoding.md R121). Safe. -/
  | unassignedOpcode (w : Word)
  /-- Raised by the fetch of the internal instruction IRC from memory (30_encoding.md R123). Safe. -/
  | ircFetched
  /-- Raised by the fetch of a byte that the program has written since reset (20_memory.md R76). Safe. -/
  | fetchOfWrittenByte (a : Word)
  /-- Raised by MHR of a hidden register that does not exist (40_move_store.md R200). Safe. -/
  | undefinedHiddenRegister (k : Nibble)
  /-- Raised by a 16-bit access at an odd address where `ALIGN_POLICY = refuse` (20_memory.md R66). Safe. -/
  | misalignedAccess (a : Word)
  /-- Raised by an access at an address that `MEM_MAP` does not admit (60_exceptions.md R610). Safe. -/
  | outsideMemoryMap (a : Word)
  /-- Raised by an access at an address where `MEM_MAP` has a device, whose behaviour the spec does not give (20_memory.md
  R70; 93_implementation_defined.md U14). Safe. -/
  | deviceAccess (a : Word)
  /-- Raised by CCB where `CACHE_TRANSPARENT = false` (93_implementation_defined.md U15). Safe. -/
  | cacheNotTransparent
  deriving DecidableEq, Repr

/-- The machine right after reset on a platform with the parameters `p`: pc and IF at their parameters, no request pending,
no byte of memory with a value. The spec gives the registers R1 to R15, the five arithmetic flags and the hidden
registers no reset value; the zeros here are a DESIGN CHOICE, unsafe (notes/assumptions/22.md), and so is the first draw
of a free bit (notes/assumptions/9.md). -/
def State.resetWith (p : Config.Params) : State where
  params := p
  regs := Vector.replicate 15 0
  pc := p.resetPc
  fr := { CF := false, AF := false, ZF := false, SF := false, OF := false, IF := p.resetIf }
  hr := Vector.replicate 16 0
  mem := []
  written := []
  irq := []
  freeCount := 0
  icacheCleared := []
  dcacheCleared := []

/-- The machine right after reset with every parameter at the spec's default (00_scope.md R6). -/
def State.reset : State := State.resetWith Config.specDefaults

end Sys2Proof.Machine
end

