-- ==== Sys2Proof/Machine/Ops.lean ====
section
/-! DEFINITION. Machine/Ops.lean: the named operations over registers, memory, the stack and the interrupt input, which
every meaning is written with; taking the external interrupt and returning from it (60_exceptions.md R603, R605).
-/
namespace Sys2Proof.Machine

/-- A computation that may stop. -/
abbrev Result (α : Type) := Host.Outcome α Fault Refusal

/-- `x`, and where it gives a value, `f` of it. -/
def andThen {α β : Type} (x : Result α) (f : α → Result β) : Result β :=
  match x with
  | .next a => f a
  | .fault r => .fault r
  | .refused r => .refused r

/-! ### Registers -/

/-- `x[r]`: R0 reads zero (10_state.md R21). -/
def State.reg (s : State) (r : RegNum) : Word :=
  if h : r.toNat = 0 then 0 else s.regs[r.toNat - 1]'(by have := r.isLt; omega)

/-- `x[r] <- v`: a write to R0 is discarded (10_state.md R21). -/
def State.setReg (s : State) (r : RegNum) (v : Word) : State :=
  if h : r.toNat = 0 then s
  else { s with regs := s.regs.set (r.toNat - 1) v (by have := r.isLt; omega) }

/-- `pc <- t`. -/
def State.withPc (s : State) (t : Word) : State := { s with pc := t }

/-- The pc after an instruction of `len` bytes that transfers no control (10_state.md R26); it wraps (20_memory.md R67). -/
def State.advance (s : State) (len : Word) : State := s.withPc (s.pc + len)

/-- FR replaced. -/
def State.withFr (s : State) (f : Flags) : State := { s with fr := f }

/-- `IF <- b` (10_state.md R34). -/
def State.withIF (s : State) (b : Bool) : State := s.withFr { s.fr with IF := b }

/-- `CF <- b` (10_state.md R28). -/
def State.withCF (s : State) (b : Bool) : State := s.withFr { s.fr with CF := b }

/-- `HR[k]` (10_state.md R35). -/
def State.hidden (s : State) (k : Nibble) : Word := s.hr[k.toNat]'k.isLt

/-- HR0 exists on every platform, another hidden register where its number is below `HR_COUNT` (10_state.md R35;
40_move_store.md R200). -/
def State.hiddenExists (s : State) (k : Nibble) : Bool := k == 0 || decide (k.toNat < s.params.hrCount)

/-- HR0 (10_state.md R35). -/
def State.hr0 (s : State) : Word := s.hr[0]'(by decide)

/-- `HR0 <- v` (10_state.md R35). -/
def State.withHr0 (s : State) (v : Word) : State := { s with hr := s.hr.set 0 v (by decide) }

/-- The number of drawn bits replaced. -/
def State.withFreeCount (s : State) (n : Nat) : State := { s with freeCount := n }

/-- `k` more undefined flag bits have been drawn (93_implementation_defined.md U1). -/
def State.drawn (s : State) (k : Nat) : State := s.withFreeCount (s.freeCount + k)

/-! ### Memory -/

/-- The byte at an address; none where no byte has been written. -/
def Memory.get : Memory → Nat → Option Byte
  | [], _ => none
  | c :: m, a => if c.1 = a then some c.2 else Memory.get m a

/-- The memory with one byte written, the addresses kept rising. -/
def Memory.set : Memory → Nat → Byte → Memory
  | [], a, b => [(a, b)]
  | c :: m, a, b =>
    if a < c.1 then (a, b) :: c :: m
    else if a = c.1 then (a, b) :: m
    else c :: Memory.set m a b

/-- The canonical form: addresses strictly rising and inside the address space. An unlisted address has no value, so
every listed byte differs from it. -/
abbrev Memory.wf (m : Memory) : Prop := (m.map Prod.fst).Pairwise (· < ·) ∧ ∀ a ∈ m.map Prod.fst, a < 65536

/-- An address added to a rising list of addresses. -/
def insertAddr : List Nat → Nat → List Nat
  | [], a => [a]
  | b :: l, a => if a < b then a :: b :: l else if a = b then b :: l else b :: insertAddr l a

/-- An address taken out of a list of addresses. -/
def eraseAddr (l : List Nat) (a : Nat) : List Nat := l.filter (fun b => b != a)

/-- `Mem[a]`, where the byte has a value. -/
def State.byteAt (s : State) (a : Word) : Option Byte := s.mem.get a.toNat

/-- A byte of the program image put into memory by the environment (70_reset_and_hazards.md R704): it is not a byte that
the program has written. -/
def State.poke (s : State) (a : Word) (b : Byte) : State :=
  { s with mem := s.mem.set a.toNat b, written := eraseAddr s.written a.toNat }

/-- Bytes of the program image put at rising addresses (70_reset_and_hazards.md R704). -/
def State.load (s : State) (a : Word) : List Byte → State
  | [] => s
  | b :: bs => (s.poke a b).load (a + 1) bs

/-- `Mem[a] <- b` by the program (20_memory.md R63): the byte counts as written from now on (R76). -/
def State.storeByte (s : State) (a : Word) (b : Byte) : State :=
  { s with mem := s.mem.set a.toNat b, written := insertAddr s.written a.toNat }

/-- `Mem[a] <- v[15:8]; Mem[a +16 1] <- v[7:0]` (20_memory.md R63, R64): what a word write does in RAM. -/
def State.storeWord (s : State) (a v : Word) : State := (s.storeByte a (hiByte v)).storeByte (a + 1) (loByte v)

/-- What a list of regions has at an address: the first region that holds it decides. -/
def kindIn : List Config.Region → Word → Option Config.MemKind
  | [], _ => none
  | r :: l, a => if r.base ≤ a.toNat ∧ a.toNat < r.base + r.size then some r.kind else kindIn l a

/-- What `MEM_MAP` has at an address, none outside the map (00_scope.md R6). -/
def State.kindAt (s : State) (a : Word) : Option Config.MemKind := kindIn s.params.memMap a

/-- Whether a 16-bit access at `a` is one that `ALIGN_POLICY = refuse` refuses (20_memory.md R66). -/
def State.misaligned (s : State) (a : Word) : Bool := s.params.alignPolicy == .refuse && a.getLsbD 0

/-- The byte at an address of RAM or ROM, where it has a value (70_reset_and_hazards.md R700). -/
def storedByte (s : State) (a : Word) : Result Byte :=
  match s.byteAt a with
  | some b => .next b
  | none => .fault (.unwrittenMemory a)

/-- `MemRead(a, 1)` (20_memory.md R62), where the platform has memory at `a` (60_exceptions.md R610). -/
def readByte (s : State) (a : Word) : Result Byte :=
  match s.kindAt a with
  | some .ram => storedByte s a
  | some .rom => storedByte s a
  | some .device => .refused (.deviceAccess a)
  | none => .refused (.outsideMemoryMap a)

/-- `MemRead(a, 2)`, big endian, at any address under `ALIGN_POLICY = allow` (20_memory.md R62, R64, R66). -/
def readWord (s : State) (a : Word) : Result Word :=
  if s.misaligned a then .refused (.misalignedAccess a)
  else andThen (readByte s a) fun hi => andThen (readByte s (a + 1)) fun lo => .next (halfword hi lo)

/-- One byte written where the platform has memory at `a` (60_exceptions.md R610); a store to ROM is lost
(92_eei_decisions.md D31; notes/assumptions/30.md). -/
def putByte (s : State) (a : Word) (b : Byte) : Result State :=
  match s.kindAt a with
  | some .ram => .next (s.storeByte a b)
  | some .rom => .next s
  | some .device => .refused (.deviceAccess a)
  | none => .refused (.outsideMemoryMap a)

/-- `MemWrite(a, 1, v)`: the low byte of `v` (20_memory.md R63). -/
def writeByte (s : State) (a v : Word) : Result State := putByte s a (loByte v)

/-- `MemWrite(a, 2, v)`, big endian (20_memory.md R63, R64, R66). A store that stops has written nothing
(notes/assumptions/34.md). -/
def writeWord (s : State) (a v : Word) : Result State :=
  if s.misaligned a then .refused (.misalignedAccess a)
  else andThen (putByte s a (hiByte v)) fun s' => putByte s' (a + 1) (loByte v)

/-- The valid bits of the blocks of both caches that hold `a` are cleared (47_system.md R531). -/
def State.clearValidBits (s : State) (a : Word) : State :=
  { s with
    icacheCleared := insertAddr s.icacheCleared a.toNat
    dcacheCleared := insertAddr s.dcacheCleared a.toNat }

/-! ### The stack (46_stack_flags.md R510) -/

/-- `x[15] <- x[15] -16 2`. -/
def State.decSp (s : State) : State := s.setReg 15 (s.reg 15 - 2)

/-- `x[15] <- x[15] +16 2`. -/
def State.incSp (s : State) : State := s.setReg 15 (s.reg 15 + 2)

/-- `Push(v)`: R15 decremented, then the word stored at the new R15 (46_stack_flags.md R510). -/
def push (s : State) (v : Word) : Result State := writeWord s.decSp (s.reg 15 - 2) v

/-- The word at the top of the stack (46_stack_flags.md R510). -/
def stackTop (s : State) : Result Word := readWord s (s.reg 15)

/-! ### The external interrupt (60_exceptions.md) -/

/-- What the environment drives at the coming boundaries replaced. -/
def State.withIrq (s : State) (q : List (Option Word)) : State := { s with irq := q }

/-- What the environment drives at this instruction boundary: the handler address of an asserted request, or none
(60_exceptions.md R601). -/
def State.request (s : State) : Option Word := s.irq.headD none

/-- The boundary test `irq and (IF = 1)`: the handler address of the request that is taken, or none
(60_exceptions.md R602). -/
def State.accepted (s : State) : Option Word := if s.fr.IF then s.request else none

/-- This boundary is past; the environment's drive at the next one comes first. -/
def State.pastBoundary (s : State) : State := s.withIrq s.irq.tail

/-- `take_interrupt(v)`, the one exception entry of the machine: the pc is pushed, interrupts are disabled, control goes to
the absolute address `v` (60_exceptions.md R603; 47_system.md R533). -/
def takeInterrupt (v : Word) (s : State) : Result State :=
  andThen (push s s.pc) fun s' => .next ((s'.withIF false).withPc v)

/-- The return from an interrupt: the pc is popped and interrupts are enabled (60_exceptions.md R605; 47_system.md R535). -/
def returnFromInterrupt (s : State) : Result State :=
  andThen (stackTop s) fun t => .next ((s.withPc t).incSp.withIF true)

end Sys2Proof.Machine
end

