-- ==== Sys2Proof/Machine/Flags.lean ====
section
/-! DEFINITION. Machine/Flags.lean: what each ALU operation computes from its two operands and the flags, and the flags it
leaves (10_state.md R28 to R33, R37; 41_arith.md R240 to R242; 42_logic.md R330; 43_shift_rotate.md R380 to R383;
44_multiply.md R460, R461); FR as a word (10_state.md R27).
-/
namespace Sys2Proof.Machine

/-- The fifteen ALU operations, in the order of the operation nibble (30_encoding.md R106). -/
inductive AluOp where
  | mov | add | adc | sub | sbb | and | or | xor | cmp | shl | shr | asr | ror | rlc | rrc
  deriving DecidableEq, Repr

/-- A result of the 17-bit data path: the 16-bit value, the carry or borrow, the signed overflow. -/
structure Sum where
  r : Word
  c : Bool
  v : Bool
  deriving DecidableEq, Repr

/-- The 17-bit path: bit 16 is CF, the low 16 bits the result (10_state.md R28). -/
def path17 (x : Word) : BitVec 17 := x.setWidth 17

/-- A carry or borrow as a 17-bit number. -/
def bit17 (c : Bool) : BitVec 17 := if c then 1 else 0

/-- `Add16(a, b, cin)` (41_arith.md R240). OF with a carry in is the spec's decision D29 (notes/assumptions/28.md). -/
def add16 (a b : Word) (cin : Bool) : Sum :=
  let t := path17 a + path17 b + bit17 cin
  let r := t.setWidth 16
  { r := r, c := t.getLsbD 16, v := a.msb == b.msb && r.msb != a.msb }

/-- `Sub16(a, b, bin)` (41_arith.md R241); CF is the borrow (notes/assumptions/29.md). -/
def sub16 (a b : Word) (bin : Bool) : Sum :=
  let t := path17 a - path17 b - bit17 bin
  let r := t.setWidth 16
  { r := r, c := t.getLsbD 16, v := a.msb != b.msb && r.msb != a.msb }

/-- SF and ZF of a 16-bit result (10_state.md R31, R32). -/
def Flags.withSZ (f : Flags) (r : Word) : Flags := { f with SF := r.msb, ZF := r == 0 }

/-- The flags of an addition or subtraction with operand B `b` (41_arith.md R242). -/
def arithFlags (f : Flags) (t : Sum) (b : Word) : Flags :=
  { f.withSZ t.r with CF := t.c, OF := t.v, AF := b.msb }

/-- The flags of a logic operation whose OF becomes `v` (42_logic.md R330). -/
def logicFlags (f : Flags) (r b : Word) (v : Bool) : Flags :=
  { f.withSZ r with CF := false, OF := v, AF := b.msb }

/-- The flags of a shift or rotate with count `b`, last bit `c` and undefined OF `v` (43_shift_rotate.md R383). -/
def shiftFlags (f : Flags) (r b : Word) (c v : Bool) : Flags :=
  { f.withSZ r with CF := c, OF := v, AF := b.msb }

/-! ### Shifts and rotates -/

/-- The one-bit steps on a value and CF (43_shift_rotate.md R381); the operations that do not shift change nothing. -/
def shiftStep (op : AluOp) (x : Word × Bool) : Word × Bool :=
  let d := x.1
  let c := x.2
  match op with
  | .shl => (d <<< 1, d.getLsbD 15)
  | .shr => (d >>> 1, d.getLsbD 0)
  | .asr => ((d >>> 1) ||| (if d.getLsbD 15 then 0x8000 else 0), d.getLsbD 0)
  | .ror => ((d >>> 1) ||| (if d.getLsbD 0 then 0x8000 else 0), d.getLsbD 0)
  | .rlc => ((d <<< 1) ||| (if c then 1 else 0), d.getLsbD 15)
  | .rrc => ((d >>> 1) ||| (if c then 0x8000 else 0), d.getLsbD 0)
  | _ => x

/-- `n` one-bit steps (43_shift_rotate.md R381): what the closed forms below are to be equal to. -/
def shiftSteps (op : AluOp) : Nat → Word × Bool → Word × Bool
  | 0, x => x
  | n + 1, x => shiftSteps op n (shiftStep op x)

/-- `{CF, a}`, the 17 bits that RLC and RRC rotate (43_shift_rotate.md R382). -/
def withCarry (c : Bool) (a : Word) : BitVec 17 := BitVec.cons c a

/-- SHL by `n` (43_shift_rotate.md R382). -/
def shl16 (a : Word) (c : Bool) (n : Nat) : Word × Bool :=
  if n = 0 then (a, c) else if n ≤ 16 then (a <<< n, a.getLsbD (16 - n)) else (0, false)

/-- SHR by `n` (43_shift_rotate.md R382). -/
def shr16 (a : Word) (c : Bool) (n : Nat) : Word × Bool :=
  if n = 0 then (a, c) else if n ≤ 16 then (a >>> n, a.getLsbD (n - 1)) else (0, false)

/-- ASR by `n` (43_shift_rotate.md R382). -/
def asr16 (a : Word) (c : Bool) (n : Nat) : Word × Bool :=
  if n = 0 then (a, c)
  else if n ≤ 15 then (a.sshiftRight n, a.getLsbD (n - 1))
  else (if a.msb then 0xFFFF else 0, a.msb)

/-- ROR by `n` (43_shift_rotate.md R382). -/
def ror16 (a : Word) (c : Bool) (n : Nat) : Word × Bool :=
  if n = 0 then (a, c)
  else
    let k := n % 16
    let r := (a >>> k) ||| (a <<< (16 - k))
    (r, r.msb)

/-- RLC by `n` (43_shift_rotate.md R382). -/
def rlc16 (a : Word) (c : Bool) (n : Nat) : Word × Bool :=
  let k := n % 17
  let v := withCarry c a
  let v' := (v <<< k) ||| (v >>> (17 - k))
  (v'.setWidth 16, v'.getLsbD 16)

/-- RRC by `n` (43_shift_rotate.md R382). -/
def rrc16 (a : Word) (c : Bool) (n : Nat) : Word × Bool :=
  let k := n % 17
  let v := withCarry c a
  let v' := (v >>> k) ||| (v <<< (17 - k))
  (v'.setWidth 16, v'.getLsbD 16)

/-- The count of a shift or rotate: operand B as `SHIFT_COUNT` reads it (43_shift_rotate.md R380). -/
def shiftCount (c : Config.ShiftCount) (b : Word) : Nat :=
  match c with
  | .full16 => b.toNat
  | .mask m => (b &&& m).toNat

/-! ### The operations -/

/-- What an ALU operation gives: the value for the destination, the flags after it, and how many undefined flag bits it
has drawn. -/
structure AluOut where
  value : Word
  flags : Flags
  draws : Nat
  deriving DecidableEq, Repr

/-- The result of an addition or subtraction (41_arith.md R242). -/
def arithOut (f : Flags) (t : Sum) (b : Word) : AluOut := { value := t.r, flags := arithFlags f t b, draws := 0 }

/-- The result of a shift or rotate `x`; OF is the undefined bit of draw `n` (43_shift_rotate.md R383). -/
def shiftOut (f : Flags) (x : Word × Bool) (b : Word) (n : Nat) : AluOut :=
  { value := x.1, flags := shiftFlags f x.1 b x.2 (Config.freeBit n), draws := 1 }

/-- Each ALU operation on `a` and operand B `b`, the flags `f` before it, the number `n` of bits drawn so far and the reading
`k` of shift counts (10_state.md R37). -/
def aluOut (k : Config.ShiftCount) (op : AluOp) (a b : Word) (f : Flags) (n : Nat) : AluOut :=
  match op with
  | .mov => { value := b, flags := f, draws := 0 }
  | .add => arithOut f (add16 a b false) b
  | .adc => arithOut f (add16 a b f.CF) b
  | .sub => arithOut f (sub16 a b false) b
  | .sbb => arithOut f (sub16 a b f.CF) b
  | .cmp => arithOut f (sub16 a b false) b
  | .and => { value := a &&& b, flags := logicFlags f (a &&& b) b (Config.freeBit n), draws := 1 }
  | .or => { value := a ||| b, flags := logicFlags f (a ||| b) b false, draws := 0 }
  | .xor => { value := a ^^^ b, flags := logicFlags f (a ^^^ b) b false, draws := 0 }
  | .shl => shiftOut f (shl16 a f.CF (shiftCount k b)) b n
  | .shr => shiftOut f (shr16 a f.CF (shiftCount k b)) b n
  | .asr => shiftOut f (asr16 a f.CF (shiftCount k b)) b n
  | .ror => shiftOut f (ror16 a f.CF (shiftCount k b)) b n
  | .rlc => shiftOut f (rlc16 a f.CF (shiftCount k b)) b n
  | .rrc => shiftOut f (rrc16 a f.CF (shiftCount k b)) b n

/-- The flags of INC and DEC: CF as `INCDEC_CF` says, AF from the implicit operand B, the constant 1
(41_arith.md R286, R287). -/
def incDecFlags (c : Config.IncDecCf) (f : Flags) (t : Sum) : Flags :=
  { f.withSZ t.r with
    CF := match c with
      | .preserve => f.CF
      | .arith => t.c
    OF := t.v
    AF := false }

/-- The flags of NEG, `t` being `Sub16(0, a, 0)` and `u` the undefined AF (41_arith.md R288). -/
def negFlags (f : Flags) (t : Sum) (u : Bool) : Flags := { f.withSZ t.r with CF := t.c, OF := t.v, AF := u }

/-- The 32-bit product of the unsigned readings (44_multiply.md R461). -/
def mulUnsigned (a b : Word) : BitVec 32 := BitVec.ofNat 32 (a.toNat * b.toNat)

/-- The 32-bit product of the signed readings (44_multiply.md R460). -/
def mulSigned (a b : Word) : BitVec 32 := BitVec.ofInt 32 (a.toInt * b.toInt)

/-- The low half of a product. -/
def lowHalf (p : BitVec 32) : Word := p.extractLsb' 0 16

/-- The high half of a product. -/
def highHalf (p : BitVec 32) : Word := p.extractLsb' 16 16

/-- The flags of a multiplication with low half `lo` and carry `c`; `u` and `v` are the undefined AF and OF
(44_multiply.md R460, R461). -/
def mulFlags (f : Flags) (lo : Word) (c u v : Bool) : Flags := { f.withSZ lo with CF := c, AF := u, OF := v }

/-! ### FR as a word -/

/-- A flag at its bit of FR. -/
def flagBit (b : Bool) (w : Word) : Word := if b then w else 0

/-- FR as PUSHF stores it: the six flags at their bits, `FR_RESERVED_READ` in the other ten (10_state.md R27, R36). -/
def Flags.toWord (f : Flags) (reserved : Word) : Word :=
  flagBit f.IF 0x0100 ||| flagBit f.OF 0x0010 ||| flagBit f.SF 0x0008 ||| flagBit f.ZF 0x0004 |||
    flagBit f.AF 0x0002 ||| flagBit f.CF 0x0001 ||| (reserved &&& 0xFEE0)

/-- The flags of a word as POPF takes them: bits 15..9 and 7..5 are ignored (46_stack_flags.md R512). -/
def Flags.ofWord (w : Word) : Flags where
  CF := w.getLsbD 0
  AF := w.getLsbD 1
  ZF := w.getLsbD 2
  SF := w.getLsbD 3
  OF := w.getLsbD 4
  IF := w.getLsbD 8

/-- XAF, AF copied into all 16 bits (10_state.md R30). -/
def Flags.xaf (f : Flags) : Word := if f.AF then 0xFFFF else 0x0000

end Sys2Proof.Machine
end

