-- ==== Sys2Proof/Machine/Operands.lean ====
section
/-! DEFINITION. Machine/Operands.lean: the operand modes of the ALU instructions (30_encoding.md R107 to R117, R125), each
mode one shared meaning over the operation; the shared meanings of stores, jumps and calls.
-/
namespace Sys2Proof.Machine

/-! ### Operand B -/

/-- imm4 extended to 16 bits as `IMM4_EXT` says (30_encoding.md R107). -/
def imm4Value (e : Config.Imm4Ext) (imm4 : Nibble) : Word :=
  match e with
  | .zero => imm4.setWidth 16
  | .sign => imm4.signExtend 16

/-- `x[rB] +16 offs16`, the address of the based modes (30_encoding.md R115; 20_memory.md R67). -/
def State.based (s : State) (rB : RegNum) (offs16 : Word) : Word := s.reg rB + offs16

/-- An unsigned byte operand at `a` (30_encoding.md R110, R115). -/
def readUnsignedByte (s : State) (a : Word) : Result Word := andThen (readByte s a) fun b => .next (b.setWidth 16)

/-- A signed byte operand at `a` (30_encoding.md R111, R116). -/
def readSignedByte (s : State) (a : Word) : Result Word := andThen (readByte s a) fun b => .next (b.signExtend 16)

/-! ### The ALU -/

/-- CMP alone has no destination (41_arith.md R274). -/
def AluOp.writesRegister : AluOp → Bool
  | .cmp => false
  | _ => true

/-- The end of every ALU instruction: the value goes to `rd` unless the operation is CMP, the flags are written, the pc
moves on by `len`. All operands have been read before (41_arith.md R244). -/
def aluFinish (op : AluOp) (rd : RegNum) (out : AluOut) (len : Word) (s : State) : State :=
  let s' := if op.writesRegister then s.setReg rd out.value else s
  ((s'.withFr out.flags).drawn out.draws).advance len

/-- An ALU instruction on the values `a` and `b`. -/
def alu (op : AluOp) (rd : RegNum) (a b len : Word) (s : State) : State :=
  aluFinish op rd (aluOut s.params.shiftCount op a b s.fr s.freeCount) len s

/-- Mode 1, `op rA, imm4` (30_encoding.md R107). -/
def aluImm4 (op : AluOp) (rA : RegNum) (imm4 : Nibble) (s : State) : Result State :=
  .next (alu op rA (s.reg rA) (imm4Value s.params.imm4Ext imm4) 2 s)

/-- Mode 2, `op rA, rB` (30_encoding.md R108). -/
def aluReg (op : AluOp) (rA rB : RegNum) (s : State) : Result State :=
  .next (alu op rA (s.reg rA) (s.reg rB) 2 s)

/-- Mode 3, `op rA, XAF` (30_encoding.md R109). -/
def aluXaf (op : AluOp) (rA : RegNum) (s : State) : Result State :=
  .next (alu op rA (s.reg rA) s.fr.xaf 2 s)

/-- Mode 4, `opB rA, [rB]` (30_encoding.md R110). -/
def aluByteInd (op : AluOp) (rA rB : RegNum) (s : State) : Result State :=
  andThen (readUnsignedByte s (s.reg rB)) fun b => .next (alu op rA (s.reg rA) b 2 s)

/-- Mode 5, `opS rA, [rB]` (30_encoding.md R111). -/
def aluSByteInd (op : AluOp) (rA rB : RegNum) (s : State) : Result State :=
  andThen (readSignedByte s (s.reg rB)) fun b => .next (alu op rA (s.reg rA) b 2 s)

/-- Mode 6, `op rA, [rB]` (30_encoding.md R112). -/
def aluWordInd (op : AluOp) (rA rB : RegNum) (s : State) : Result State :=
  andThen (readWord s (s.reg rB)) fun b => .next (alu op rA (s.reg rA) b 2 s)

/-- Mode 8, `op rA, imm16` (30_encoding.md R113). -/
def aluImm16 (op : AluOp) (rA : RegNum) (imm16 : Word) (s : State) : Result State :=
  .next (alu op rA (s.reg rA) imm16 4 s)

/-- Mode B, `op rA, rB, imm16`: the first operand is rB, rA is not read (30_encoding.md R114). -/
def aluRegImm16 (op : AluOp) (rA rB : RegNum) (imm16 : Word) (s : State) : Result State :=
  .next (alu op rA (s.reg rB) imm16 4 s)

/-- Mode C, `opB rA, [rB+offs16]` (30_encoding.md R115). -/
def aluByteBased (op : AluOp) (rA rB : RegNum) (offs16 : Word) (s : State) : Result State :=
  andThen (readUnsignedByte s (s.based rB offs16)) fun b => .next (alu op rA (s.reg rA) b 4 s)

/-- Mode D, `opS rA, [rB+offs16]` (30_encoding.md R116). -/
def aluSByteBased (op : AluOp) (rA rB : RegNum) (offs16 : Word) (s : State) : Result State :=
  andThen (readSignedByte s (s.based rB offs16)) fun b => .next (alu op rA (s.reg rA) b 4 s)

/-- Mode E, `op rA, [rB+offs16]` (30_encoding.md R117). -/
def aluWordBased (op : AluOp) (rA rB : RegNum) (offs16 : Word) (s : State) : Result State :=
  andThen (readWord s (s.based rB offs16)) fun b => .next (alu op rA (s.reg rA) b 4 s)

/-! ### Stores and cache blocks -/

/-- A byte store of rA at `a` (40_move_store.md R212, R213, R215). -/
def storeByteAt (rA : RegNum) (a len : Word) (s : State) : Result State :=
  andThen (writeByte s a (s.reg rA)) fun s' => .next (s'.advance len)

/-- A word store of rA at `a` (40_move_store.md R212, R214, R216). -/
def storeWordAt (rA : RegNum) (a len : Word) (s : State) : Result State :=
  andThen (writeWord s a (s.reg rA)) fun s' => .next (s'.advance len)

/-- CCB at `a`: the valid bits are cleared, nothing that a program can see changes but the pc (47_system.md R531). Without
transparent caches the spec gives no model (93_implementation_defined.md U15). -/
def clearCacheBlock (a len : Word) (s : State) : Result State :=
  if s.params.cacheTransparent then .next ((s.clearValidBits a).advance len) else .refused .cacheNotTransparent

/-! ### Control transfer -/

/-- `pc +16 2 +16 offs16`, the target of a relative transfer (45_control.md R470). -/
def State.relative (s : State) (offs16 : Word) : Word := s.pc + 2 + offs16

/-- A conditional jump (45_control.md R470, R471). -/
def jumpIf (c : Bool) (offs16 : Word) (s : State) : Result State :=
  .next (if c then s.withPc (s.relative offs16) else s.advance 4)

/-- A call that pushes `ret` and goes to `target` (45_control.md R472 to R474). -/
def callTo (ret target : Word) (s : State) : Result State :=
  andThen (push s ret) fun s' => .next (s'.withPc target)

end Sys2Proof.Machine
end

