-- ==== Sys2Proof/Machine/Arith.lean ====
section
/-! DEFINITION. Machine/Arith.lean: the meanings of ADD, ADC, SUB, SBB, CMP, INC, DEC, NEG (41_arith.md), one for each
form, over the shared operations of Ops, Flags and Operands.
-/
namespace Sys2Proof.Machine

/-- `ADD rA, imm4` (41_arith.md R250, R251). -/
def execAddImm4 (rA : RegNum) (imm4 : Nibble) (s : State) : Result State :=
  aluImm4 .add rA imm4 s

/-- `ADD rA, rB` (41_arith.md R250, R252). -/
def execAddReg (rA : RegNum) (rB : RegNum) (s : State) : Result State :=
  aluReg .add rA rB s

/-- `ADD rA, XAF` (41_arith.md R250, R253). -/
def execAddXaf (rA : RegNum) (s : State) : Result State :=
  aluXaf .add rA s

/-- `ADDB rA, [rB]` (41_arith.md R250, R254). -/
def execAddbInd (rA : RegNum) (rB : RegNum) (s : State) : Result State :=
  aluByteInd .add rA rB s

/-- `ADDS rA, [rB]` (41_arith.md R250, R255). -/
def execAddsInd (rA : RegNum) (rB : RegNum) (s : State) : Result State :=
  aluSByteInd .add rA rB s

/-- `ADD rA, [rB]` (41_arith.md R250, R256). -/
def execAddInd (rA : RegNum) (rB : RegNum) (s : State) : Result State :=
  aluWordInd .add rA rB s

/-- `ADD rA, imm16` (41_arith.md R250, R257). -/
def execAddImm16 (rA : RegNum) (imm16 : Word) (s : State) : Result State :=
  aluImm16 .add rA imm16 s

/-- `ADD rA, rB, imm16` (41_arith.md R250, R258). -/
def execAddRegImm16 (rA : RegNum) (rB : RegNum) (imm16 : Word) (s : State) : Result State :=
  aluRegImm16 .add rA rB imm16 s

/-- `ADDB rA, [rB+offs16]` (41_arith.md R250, R259). -/
def execAddbBased (rA : RegNum) (rB : RegNum) (offs16 : Word) (s : State) : Result State :=
  aluByteBased .add rA rB offs16 s

/-- `ADDS rA, [rB+offs16]` (41_arith.md R250, R260). -/
def execAddsBased (rA : RegNum) (rB : RegNum) (offs16 : Word) (s : State) : Result State :=
  aluSByteBased .add rA rB offs16 s

/-- `ADD rA, [rB+offs16]` (41_arith.md R250, R261). -/
def execAddBased (rA : RegNum) (rB : RegNum) (offs16 : Word) (s : State) : Result State :=
  aluWordBased .add rA rB offs16 s

/-- `ADC rA, imm4` (41_arith.md R262, R263). -/
def execAdcImm4 (rA : RegNum) (imm4 : Nibble) (s : State) : Result State :=
  aluImm4 .adc rA imm4 s

/-- `ADC rA, rB` (41_arith.md R262, R264). -/
def execAdcReg (rA : RegNum) (rB : RegNum) (s : State) : Result State :=
  aluReg .adc rA rB s

/-- `ADC rA, XAF` (41_arith.md R262, R265). -/
def execAdcXaf (rA : RegNum) (s : State) : Result State :=
  aluXaf .adc rA s

/-- `ADCB rA, [rB]` (41_arith.md R262, R266). -/
def execAdcbInd (rA : RegNum) (rB : RegNum) (s : State) : Result State :=
  aluByteInd .adc rA rB s

/-- `ADCS rA, [rB]` (41_arith.md R262, R267). -/
def execAdcsInd (rA : RegNum) (rB : RegNum) (s : State) : Result State :=
  aluSByteInd .adc rA rB s

/-- `ADC rA, [rB]` (41_arith.md R262, R268). -/
def execAdcInd (rA : RegNum) (rB : RegNum) (s : State) : Result State :=
  aluWordInd .adc rA rB s

/-- `ADC rA, imm16` (41_arith.md R262, R269). -/
def execAdcImm16 (rA : RegNum) (imm16 : Word) (s : State) : Result State :=
  aluImm16 .adc rA imm16 s

/-- `ADC rA, rB, imm16` (41_arith.md R262, R270). -/
def execAdcRegImm16 (rA : RegNum) (rB : RegNum) (imm16 : Word) (s : State) : Result State :=
  aluRegImm16 .adc rA rB imm16 s

/-- `ADCB rA, [rB+offs16]` (41_arith.md R262, R271). -/
def execAdcbBased (rA : RegNum) (rB : RegNum) (offs16 : Word) (s : State) : Result State :=
  aluByteBased .adc rA rB offs16 s

/-- `ADCS rA, [rB+offs16]` (41_arith.md R262, R272). -/
def execAdcsBased (rA : RegNum) (rB : RegNum) (offs16 : Word) (s : State) : Result State :=
  aluSByteBased .adc rA rB offs16 s

/-- `ADC rA, [rB+offs16]` (41_arith.md R262, R273). -/
def execAdcBased (rA : RegNum) (rB : RegNum) (offs16 : Word) (s : State) : Result State :=
  aluWordBased .adc rA rB offs16 s

/-- `CMP rA, imm4` (41_arith.md R274, R275). -/
def execCmpImm4 (rA : RegNum) (imm4 : Nibble) (s : State) : Result State :=
  aluImm4 .cmp rA imm4 s

/-- `CMP rA, rB` (41_arith.md R274, R276). -/
def execCmpReg (rA : RegNum) (rB : RegNum) (s : State) : Result State :=
  aluReg .cmp rA rB s

/-- `CMP rA, XAF` (41_arith.md R274, R277). -/
def execCmpXaf (rA : RegNum) (s : State) : Result State :=
  aluXaf .cmp rA s

/-- `CMPB rA, [rB]` (41_arith.md R274, R278). -/
def execCmpbInd (rA : RegNum) (rB : RegNum) (s : State) : Result State :=
  aluByteInd .cmp rA rB s

/-- `CMPS rA, [rB]` (41_arith.md R274, R279). -/
def execCmpsInd (rA : RegNum) (rB : RegNum) (s : State) : Result State :=
  aluSByteInd .cmp rA rB s

/-- `CMP rA, [rB]` (41_arith.md R274, R280). -/
def execCmpInd (rA : RegNum) (rB : RegNum) (s : State) : Result State :=
  aluWordInd .cmp rA rB s

/-- `CMP rA, imm16` (41_arith.md R274, R281). -/
def execCmpImm16 (rA : RegNum) (imm16 : Word) (s : State) : Result State :=
  aluImm16 .cmp rA imm16 s

/-- `CMP rA, rB, imm16` (41_arith.md R274, R282). -/
def execCmpRegImm16 (rA : RegNum) (rB : RegNum) (imm16 : Word) (s : State) : Result State :=
  aluRegImm16 .cmp rA rB imm16 s

/-- `CMPB rA, [rB+offs16]` (41_arith.md R274, R283). -/
def execCmpbBased (rA : RegNum) (rB : RegNum) (offs16 : Word) (s : State) : Result State :=
  aluByteBased .cmp rA rB offs16 s

/-- `CMPS rA, [rB+offs16]` (41_arith.md R274, R284). -/
def execCmpsBased (rA : RegNum) (rB : RegNum) (offs16 : Word) (s : State) : Result State :=
  aluSByteBased .cmp rA rB offs16 s

/-- `CMP rA, [rB+offs16]` (41_arith.md R274, R285). -/
def execCmpBased (rA : RegNum) (rB : RegNum) (offs16 : Word) (s : State) : Result State :=
  aluWordBased .cmp rA rB offs16 s

/-- `SUB rA, imm4` (41_arith.md R289, R290). -/
def execSubImm4 (rA : RegNum) (imm4 : Nibble) (s : State) : Result State :=
  aluImm4 .sub rA imm4 s

/-- `SUB rA, rB` (41_arith.md R289, R291). -/
def execSubReg (rA : RegNum) (rB : RegNum) (s : State) : Result State :=
  aluReg .sub rA rB s

/-- `SUB rA, XAF` (41_arith.md R289, R292). -/
def execSubXaf (rA : RegNum) (s : State) : Result State :=
  aluXaf .sub rA s

/-- `SUBB rA, [rB]` (41_arith.md R289, R293). -/
def execSubbInd (rA : RegNum) (rB : RegNum) (s : State) : Result State :=
  aluByteInd .sub rA rB s

/-- `SUBS rA, [rB]` (41_arith.md R289, R294). -/
def execSubsInd (rA : RegNum) (rB : RegNum) (s : State) : Result State :=
  aluSByteInd .sub rA rB s

/-- `SUB rA, [rB]` (41_arith.md R289, R295). -/
def execSubInd (rA : RegNum) (rB : RegNum) (s : State) : Result State :=
  aluWordInd .sub rA rB s

/-- `SUB rA, imm16` (41_arith.md R289, R296). -/
def execSubImm16 (rA : RegNum) (imm16 : Word) (s : State) : Result State :=
  aluImm16 .sub rA imm16 s

/-- `SUB rA, rB, imm16` (41_arith.md R289, R297). -/
def execSubRegImm16 (rA : RegNum) (rB : RegNum) (imm16 : Word) (s : State) : Result State :=
  aluRegImm16 .sub rA rB imm16 s

/-- `SUBB rA, [rB+offs16]` (41_arith.md R289, R298). -/
def execSubbBased (rA : RegNum) (rB : RegNum) (offs16 : Word) (s : State) : Result State :=
  aluByteBased .sub rA rB offs16 s

/-- `SUBS rA, [rB+offs16]` (41_arith.md R289, R299). -/
def execSubsBased (rA : RegNum) (rB : RegNum) (offs16 : Word) (s : State) : Result State :=
  aluSByteBased .sub rA rB offs16 s

/-- `SUB rA, [rB+offs16]` (41_arith.md R289, R300). -/
def execSubBased (rA : RegNum) (rB : RegNum) (offs16 : Word) (s : State) : Result State :=
  aluWordBased .sub rA rB offs16 s

/-- `SBB rA, imm4` (41_arith.md R301, R302). -/
def execSbbImm4 (rA : RegNum) (imm4 : Nibble) (s : State) : Result State :=
  aluImm4 .sbb rA imm4 s

/-- `SBB rA, rB` (41_arith.md R301, R303). -/
def execSbbReg (rA : RegNum) (rB : RegNum) (s : State) : Result State :=
  aluReg .sbb rA rB s

/-- `SBB rA, XAF` (41_arith.md R301, R304). -/
def execSbbXaf (rA : RegNum) (s : State) : Result State :=
  aluXaf .sbb rA s

/-- `SBBB rA, [rB]` (41_arith.md R301, R305). -/
def execSbbbInd (rA : RegNum) (rB : RegNum) (s : State) : Result State :=
  aluByteInd .sbb rA rB s

/-- `SBBS rA, [rB]` (41_arith.md R301, R306). -/
def execSbbsInd (rA : RegNum) (rB : RegNum) (s : State) : Result State :=
  aluSByteInd .sbb rA rB s

/-- `SBB rA, [rB]` (41_arith.md R301, R307). -/
def execSbbInd (rA : RegNum) (rB : RegNum) (s : State) : Result State :=
  aluWordInd .sbb rA rB s

/-- `SBB rA, imm16` (41_arith.md R301, R308). -/
def execSbbImm16 (rA : RegNum) (imm16 : Word) (s : State) : Result State :=
  aluImm16 .sbb rA imm16 s

/-- `SBB rA, rB, imm16` (41_arith.md R301, R309). -/
def execSbbRegImm16 (rA : RegNum) (rB : RegNum) (imm16 : Word) (s : State) : Result State :=
  aluRegImm16 .sbb rA rB imm16 s

/-- `SBBB rA, [rB+offs16]` (41_arith.md R301, R310). -/
def execSbbbBased (rA : RegNum) (rB : RegNum) (offs16 : Word) (s : State) : Result State :=
  aluByteBased .sbb rA rB offs16 s

/-- `SBBS rA, [rB+offs16]` (41_arith.md R301, R311). -/
def execSbbsBased (rA : RegNum) (rB : RegNum) (offs16 : Word) (s : State) : Result State :=
  aluSByteBased .sbb rA rB offs16 s

/-- `SBB rA, [rB+offs16]` (41_arith.md R301, R312). -/
def execSbbBased (rA : RegNum) (rB : RegNum) (offs16 : Word) (s : State) : Result State :=
  aluWordBased .sbb rA rB offs16 s

/-- `NEG rA` (41_arith.md R288): AF is undefined: one free bit is drawn. -/
def execNeg (rA : RegNum) (s : State) : Result State :=
  let t := sub16 0 (s.reg rA) false
  .next ((((s.setReg rA t.r).withFr (negFlags s.fr t (Config.freeBit s.freeCount))).drawn 1).advance 2)

/-- `INC rA` (41_arith.md R287). -/
def execInc (rA : RegNum) (s : State) : Result State :=
  let t := add16 (s.reg rA) 1 false
  .next (((s.setReg rA t.r).withFr (incDecFlags s.params.incDecCf s.fr t)).advance 2)

/-- `DEC rA` (41_arith.md R286). -/
def execDec (rA : RegNum) (s : State) : Result State :=
  let t := sub16 (s.reg rA) 1 false
  .next (((s.setReg rA t.r).withFr (incDecFlags s.params.incDecCf s.fr t)).advance 2)

end Sys2Proof.Machine
end

