-- ==== Sys2Proof/Machine/Control.lean ====
section
/-! DEFINITION. Machine/Control.lean: the meanings of calls, jumps, RET (45_control.md), one for each
form, over the shared operations of Ops, Flags and Operands.
-/
namespace Sys2Proof.Machine

/-- `JMPI rA` (45_control.md R491). -/
def execJmpi (rA : RegNum) (s : State) : Result State :=
  .next (s.withPc (s.reg rA))

/-- `CALLI rA` (45_control.md R474): the target is read after R15 is decremented (R496; notes/assumptions/26.md). -/
def execCalli (rA : RegNum) (s : State) : Result State :=
  callTo (s.pc + 2) (s.decSp.reg rA) s

/-- `RET` (45_control.md R492). -/
def execRet (s : State) : Result State :=
  andThen (stackTop s) fun t => .next ((s.withPc t).incSp)

/-- `JZ offs16` (45_control.md R475). -/
def execJz (offs16 : Word) (s : State) : Result State :=
  jumpIf s.fr.ZF offs16 s

/-- `JNZ offs16` (45_control.md R476). -/
def execJnz (offs16 : Word) (s : State) : Result State :=
  jumpIf (!s.fr.ZF) offs16 s

/-- `JC offs16` (45_control.md R477). -/
def execJc (offs16 : Word) (s : State) : Result State :=
  jumpIf s.fr.CF offs16 s

/-- `JNC offs16` (45_control.md R478). -/
def execJnc (offs16 : Word) (s : State) : Result State :=
  jumpIf (!s.fr.CF) offs16 s

/-- `JS offs16` (45_control.md R479). -/
def execJs (offs16 : Word) (s : State) : Result State :=
  jumpIf s.fr.SF offs16 s

/-- `JNS offs16` (45_control.md R480). -/
def execJns (offs16 : Word) (s : State) : Result State :=
  jumpIf (!s.fr.SF) offs16 s

/-- `JO offs16` (45_control.md R481). -/
def execJo (offs16 : Word) (s : State) : Result State :=
  jumpIf s.fr.OF offs16 s

/-- `JNO offs16` (45_control.md R482). -/
def execJno (offs16 : Word) (s : State) : Result State :=
  jumpIf (!s.fr.OF) offs16 s

/-- `JGE offs16` (45_control.md R483). -/
def execJge (offs16 : Word) (s : State) : Result State :=
  jumpIf (s.fr.SF == s.fr.OF) offs16 s

/-- `JLT offs16` (45_control.md R484). -/
def execJlt (offs16 : Word) (s : State) : Result State :=
  jumpIf (s.fr.SF != s.fr.OF) offs16 s

/-- `JGT offs16` (45_control.md R485). -/
def execJgt (offs16 : Word) (s : State) : Result State :=
  jumpIf (!s.fr.ZF && s.fr.SF == s.fr.OF) offs16 s

/-- `JLE offs16` (45_control.md R486). -/
def execJle (offs16 : Word) (s : State) : Result State :=
  jumpIf (s.fr.ZF || s.fr.SF != s.fr.OF) offs16 s

/-- `JAT offs16` (45_control.md R487). -/
def execJat (offs16 : Word) (s : State) : Result State :=
  jumpIf (!s.fr.CF && !s.fr.ZF) offs16 s

/-- `JBE offs16` (45_control.md R488). -/
def execJbe (offs16 : Word) (s : State) : Result State :=
  jumpIf (s.fr.CF || s.fr.ZF) offs16 s

/-- `JMP offs16` (45_control.md R489). -/
def execJmp (offs16 : Word) (s : State) : Result State :=
  .next (s.withPc (s.relative offs16))

/-- `JMPA offs16` (45_control.md R490). -/
def execJmpa (offs16 : Word) (s : State) : Result State :=
  .next (s.withPc offs16)

/-- `CALL offs16` (45_control.md R472). -/
def execCall (offs16 : Word) (s : State) : Result State :=
  callTo (s.pc + 4) (s.relative offs16) s

/-- `CALLA offs16` (45_control.md R473). -/
def execCalla (offs16 : Word) (s : State) : Result State :=
  callTo (s.pc + 4) offs16 s

/-- `JEQ offs16` (45_control.md R475), a second name of the encoding of jz (R132). -/
def execJeq (offs16 : Word) (s : State) : Result State :=
  jumpIf s.fr.ZF offs16 s

/-- `JNE offs16` (45_control.md R476), a second name of the encoding of jnz (R132). -/
def execJne (offs16 : Word) (s : State) : Result State :=
  jumpIf (!s.fr.ZF) offs16 s

/-- `JBT offs16` (45_control.md R477), a second name of the encoding of jc (R132). -/
def execJbt (offs16 : Word) (s : State) : Result State :=
  jumpIf s.fr.CF offs16 s

/-- `JAE offs16` (45_control.md R478), a second name of the encoding of jnc (R132). -/
def execJae (offs16 : Word) (s : State) : Result State :=
  jumpIf (!s.fr.CF) offs16 s

end Sys2Proof.Machine
end

