-- ==== Sys2Proof/Machine/Logic.lean ====
section
/-! DEFINITION. Machine/Logic.lean: the meanings of AND, OR, XOR, NOT (42_logic.md), one for each
form, over the shared operations of Ops, Flags and Operands.
-/
namespace Sys2Proof.Machine

/-- `AND rA, imm4` (42_logic.md R331, R332). -/
def execAndImm4 (rA : RegNum) (imm4 : Nibble) (s : State) : Result State :=
  aluImm4 .and rA imm4 s

/-- `AND rA, rB` (42_logic.md R331, R333). -/
def execAndReg (rA : RegNum) (rB : RegNum) (s : State) : Result State :=
  aluReg .and rA rB s

/-- `AND rA, XAF` (42_logic.md R331, R334). -/
def execAndXaf (rA : RegNum) (s : State) : Result State :=
  aluXaf .and rA s

/-- `ANDB rA, [rB]` (42_logic.md R331, R335). -/
def execAndbInd (rA : RegNum) (rB : RegNum) (s : State) : Result State :=
  aluByteInd .and rA rB s

/-- `ANDS rA, [rB]` (42_logic.md R331, R336). -/
def execAndsInd (rA : RegNum) (rB : RegNum) (s : State) : Result State :=
  aluSByteInd .and rA rB s

/-- `AND rA, [rB]` (42_logic.md R331, R337). -/
def execAndInd (rA : RegNum) (rB : RegNum) (s : State) : Result State :=
  aluWordInd .and rA rB s

/-- `AND rA, imm16` (42_logic.md R331, R338). -/
def execAndImm16 (rA : RegNum) (imm16 : Word) (s : State) : Result State :=
  aluImm16 .and rA imm16 s

/-- `AND rA, rB, imm16` (42_logic.md R331, R339). -/
def execAndRegImm16 (rA : RegNum) (rB : RegNum) (imm16 : Word) (s : State) : Result State :=
  aluRegImm16 .and rA rB imm16 s

/-- `ANDB rA, [rB+offs16]` (42_logic.md R331, R340). -/
def execAndbBased (rA : RegNum) (rB : RegNum) (offs16 : Word) (s : State) : Result State :=
  aluByteBased .and rA rB offs16 s

/-- `ANDS rA, [rB+offs16]` (42_logic.md R331, R341). -/
def execAndsBased (rA : RegNum) (rB : RegNum) (offs16 : Word) (s : State) : Result State :=
  aluSByteBased .and rA rB offs16 s

/-- `AND rA, [rB+offs16]` (42_logic.md R331, R342). -/
def execAndBased (rA : RegNum) (rB : RegNum) (offs16 : Word) (s : State) : Result State :=
  aluWordBased .and rA rB offs16 s

/-- `OR rA, imm4` (42_logic.md R344, R345). -/
def execOrImm4 (rA : RegNum) (imm4 : Nibble) (s : State) : Result State :=
  aluImm4 .or rA imm4 s

/-- `OR rA, rB` (42_logic.md R344, R346). -/
def execOrReg (rA : RegNum) (rB : RegNum) (s : State) : Result State :=
  aluReg .or rA rB s

/-- `OR rA, XAF` (42_logic.md R344, R347). -/
def execOrXaf (rA : RegNum) (s : State) : Result State :=
  aluXaf .or rA s

/-- `ORB rA, [rB]` (42_logic.md R344, R348). -/
def execOrbInd (rA : RegNum) (rB : RegNum) (s : State) : Result State :=
  aluByteInd .or rA rB s

/-- `ORS rA, [rB]` (42_logic.md R344, R349). -/
def execOrsInd (rA : RegNum) (rB : RegNum) (s : State) : Result State :=
  aluSByteInd .or rA rB s

/-- `OR rA, [rB]` (42_logic.md R344, R350). -/
def execOrInd (rA : RegNum) (rB : RegNum) (s : State) : Result State :=
  aluWordInd .or rA rB s

/-- `OR rA, imm16` (42_logic.md R344, R351). -/
def execOrImm16 (rA : RegNum) (imm16 : Word) (s : State) : Result State :=
  aluImm16 .or rA imm16 s

/-- `OR rA, rB, imm16` (42_logic.md R344, R352). -/
def execOrRegImm16 (rA : RegNum) (rB : RegNum) (imm16 : Word) (s : State) : Result State :=
  aluRegImm16 .or rA rB imm16 s

/-- `ORB rA, [rB+offs16]` (42_logic.md R344, R353). -/
def execOrbBased (rA : RegNum) (rB : RegNum) (offs16 : Word) (s : State) : Result State :=
  aluByteBased .or rA rB offs16 s

/-- `ORS rA, [rB+offs16]` (42_logic.md R344, R354). -/
def execOrsBased (rA : RegNum) (rB : RegNum) (offs16 : Word) (s : State) : Result State :=
  aluSByteBased .or rA rB offs16 s

/-- `OR rA, [rB+offs16]` (42_logic.md R344, R355). -/
def execOrBased (rA : RegNum) (rB : RegNum) (offs16 : Word) (s : State) : Result State :=
  aluWordBased .or rA rB offs16 s

/-- `XOR rA, imm4` (42_logic.md R356, R357). -/
def execXorImm4 (rA : RegNum) (imm4 : Nibble) (s : State) : Result State :=
  aluImm4 .xor rA imm4 s

/-- `XOR rA, rB` (42_logic.md R356, R358). -/
def execXorReg (rA : RegNum) (rB : RegNum) (s : State) : Result State :=
  aluReg .xor rA rB s

/-- `XOR rA, XAF` (42_logic.md R356, R359). -/
def execXorXaf (rA : RegNum) (s : State) : Result State :=
  aluXaf .xor rA s

/-- `XORB rA, [rB]` (42_logic.md R356, R360). -/
def execXorbInd (rA : RegNum) (rB : RegNum) (s : State) : Result State :=
  aluByteInd .xor rA rB s

/-- `XORS rA, [rB]` (42_logic.md R356, R361). -/
def execXorsInd (rA : RegNum) (rB : RegNum) (s : State) : Result State :=
  aluSByteInd .xor rA rB s

/-- `XOR rA, [rB]` (42_logic.md R356, R362). -/
def execXorInd (rA : RegNum) (rB : RegNum) (s : State) : Result State :=
  aluWordInd .xor rA rB s

/-- `XOR rA, imm16` (42_logic.md R356, R363). -/
def execXorImm16 (rA : RegNum) (imm16 : Word) (s : State) : Result State :=
  aluImm16 .xor rA imm16 s

/-- `XOR rA, rB, imm16` (42_logic.md R356, R364). -/
def execXorRegImm16 (rA : RegNum) (rB : RegNum) (imm16 : Word) (s : State) : Result State :=
  aluRegImm16 .xor rA rB imm16 s

/-- `XORB rA, [rB+offs16]` (42_logic.md R356, R365). -/
def execXorbBased (rA : RegNum) (rB : RegNum) (offs16 : Word) (s : State) : Result State :=
  aluByteBased .xor rA rB offs16 s

/-- `XORS rA, [rB+offs16]` (42_logic.md R356, R366). -/
def execXorsBased (rA : RegNum) (rB : RegNum) (offs16 : Word) (s : State) : Result State :=
  aluSByteBased .xor rA rB offs16 s

/-- `XOR rA, [rB+offs16]` (42_logic.md R356, R367). -/
def execXorBased (rA : RegNum) (rB : RegNum) (offs16 : Word) (s : State) : Result State :=
  aluWordBased .xor rA rB offs16 s

/-- `NOT rA` (42_logic.md R343): no flag is written. -/
def execNot (rA : RegNum) (s : State) : Result State :=
  .next ((s.setReg rA (~~~ (s.reg rA))).advance 2)

end Sys2Proof.Machine
end

