-- ==== Sys2Proof/Machine/Move.lean ====
section
/-! DEFINITION. Machine/Move.lean: the meanings of MOV, MHR and the stores (40_move_store.md), one for each
form, over the shared operations of Ops, Flags and Operands.
-/
namespace Sys2Proof.Machine

/-- `MOV rA, imm4` (40_move_store.md R201, R202). -/
def execMovImm4 (rA : RegNum) (imm4 : Nibble) (s : State) : Result State :=
  aluImm4 .mov rA imm4 s

/-- `MOV rA, rB` (40_move_store.md R201, R203). -/
def execMovReg (rA : RegNum) (rB : RegNum) (s : State) : Result State :=
  aluReg .mov rA rB s

/-- `MOV rA, XAF` (40_move_store.md R201, R204). -/
def execMovXaf (rA : RegNum) (s : State) : Result State :=
  aluXaf .mov rA s

/-- `MOVB rA, [rB]` (40_move_store.md R201, R205). -/
def execMovbInd (rA : RegNum) (rB : RegNum) (s : State) : Result State :=
  aluByteInd .mov rA rB s

/-- `MOVS rA, [rB]` (40_move_store.md R201, R206). -/
def execMovsInd (rA : RegNum) (rB : RegNum) (s : State) : Result State :=
  aluSByteInd .mov rA rB s

/-- `MOV rA, [rB]` (40_move_store.md R201, R207). -/
def execMovInd (rA : RegNum) (rB : RegNum) (s : State) : Result State :=
  aluWordInd .mov rA rB s

/-- `MOV rA, imm16` (40_move_store.md R201, R208). -/
def execMovImm16 (rA : RegNum) (imm16 : Word) (s : State) : Result State :=
  aluImm16 .mov rA imm16 s

/-- `MOVB rA, [rB+offs16]` (40_move_store.md R201, R209). -/
def execMovbBased (rA : RegNum) (rB : RegNum) (offs16 : Word) (s : State) : Result State :=
  aluByteBased .mov rA rB offs16 s

/-- `MOVS rA, [rB+offs16]` (40_move_store.md R201, R210). -/
def execMovsBased (rA : RegNum) (rB : RegNum) (offs16 : Word) (s : State) : Result State :=
  aluSByteBased .mov rA rB offs16 s

/-- `MOV rA, [rB+offs16]` (40_move_store.md R201, R211). -/
def execMovBased (rA : RegNum) (rB : RegNum) (offs16 : Word) (s : State) : Result State :=
  aluWordBased .mov rA rB offs16 s

/-- `MHR rA, hrB` (40_move_store.md R200): `x[rA] <- HR[hrB]`; a hidden register that does not exist is refused. -/
def execMhr (rA : RegNum) (hrB : Nibble) (s : State) : Result State :=
  if s.hiddenExists hrB then .next ((s.setReg rA (s.hidden hrB)).advance 2)
  else .refused (.undefinedHiddenRegister hrB)

/-- `STB [rB], rA` (40_move_store.md R213). -/
def execStbInd (rA : RegNum) (rB : RegNum) (s : State) : Result State :=
  storeByteAt rA (s.reg rB) 2 s

/-- `ST [rB], rA` (40_move_store.md R214). -/
def execStInd (rA : RegNum) (rB : RegNum) (s : State) : Result State :=
  storeWordAt rA (s.reg rB) 2 s

/-- `STB [rB+offs16], rA` (40_move_store.md R215). -/
def execStbBased (rA : RegNum) (rB : RegNum) (offs16 : Word) (s : State) : Result State :=
  storeByteAt rA (s.based rB offs16) 4 s

/-- `ST [rB+offs16], rA` (40_move_store.md R216). -/
def execStBased (rA : RegNum) (rB : RegNum) (offs16 : Word) (s : State) : Result State :=
  storeWordAt rA (s.based rB offs16) 4 s

/-- `STS [rB], rA` (40_move_store.md R213), a second name of the encoding of stbInd (R132). -/
def execStsInd (rA : RegNum) (rB : RegNum) (s : State) : Result State :=
  storeByteAt rA (s.reg rB) 2 s

/-- `STS [rB+offs16], rA` (40_move_store.md R215), a second name of the encoding of stbBased (R132). -/
def execStsBased (rA : RegNum) (rB : RegNum) (offs16 : Word) (s : State) : Result State :=
  storeByteAt rA (s.based rB offs16) 4 s

end Sys2Proof.Machine
end

