-- ==== Sys2Proof/Machine/Multiply.lean ====
section
/-! DEFINITION. Machine/Multiply.lean: the meanings of MULU, MULS (44_multiply.md), one for each
form, over the shared operations of Ops, Flags and Operands.
-/
namespace Sys2Proof.Machine

/-- The end of a multiplication with product `p` and carry `c`: low half to rA, high half to HR0, AF and OF the undefined bits
of the next two draws (44_multiply.md R460, R461). -/
def multiply (rA : RegNum) (p : BitVec 32) (c : Bool) (s : State) : State :=
  let f := mulFlags s.fr (lowHalf p) c (Config.freeBit s.freeCount) (Config.freeBit (s.freeCount + 1))
  ((((s.setReg rA (lowHalf p)).withHr0 (highHalf p)).withFr f).drawn 2).advance 2

/-- `MULU rA, rB` (44_multiply.md R461): CF tells whether the high half is significant. -/
def execMulu (rA : RegNum) (rB : RegNum) (s : State) : Result State :=
  let p := mulUnsigned (s.reg rA) (s.reg rB)
  .next (multiply rA p (highHalf p != 0) s)

/-- `MULS rA, rB` (44_multiply.md R460): CF is 0 exactly when the high half is all zeros or all ones. -/
def execMuls (rA : RegNum) (rB : RegNum) (s : State) : Result State :=
  let p := mulSigned (s.reg rA) (s.reg rB)
  .next (multiply rA p (highHalf p != 0 && highHalf p != 0xFFFF) s)

end Sys2Proof.Machine
end

