-- ==== Sys2Proof/Machine/Shift.lean ====
section
/-! DEFINITION. Machine/Shift.lean: the meanings of SHL, SHR, ASR, ROR, RLC, RRC (43_shift_rotate.md), one for each
form, over the shared operations of Ops, Flags and Operands.
-/
namespace Sys2Proof.Machine

/-- `ASR rA, imm4` (43_shift_rotate.md R384, R385). -/
def execAsrImm4 (rA : RegNum) (imm4 : Nibble) (s : State) : Result State :=
  aluImm4 .asr rA imm4 s

/-- `ASR rA, rB` (43_shift_rotate.md R384, R386). -/
def execAsrReg (rA : RegNum) (rB : RegNum) (s : State) : Result State :=
  aluReg .asr rA rB s

/-- `ASR rA, XAF` (43_shift_rotate.md R384, R387). -/
def execAsrXaf (rA : RegNum) (s : State) : Result State :=
  aluXaf .asr rA s

/-- `ASRB rA, [rB]` (43_shift_rotate.md R384, R388). -/
def execAsrbInd (rA : RegNum) (rB : RegNum) (s : State) : Result State :=
  aluByteInd .asr rA rB s

/-- `ASR rA, [rB]` (43_shift_rotate.md R384, R389). -/
def execAsrInd (rA : RegNum) (rB : RegNum) (s : State) : Result State :=
  aluWordInd .asr rA rB s

/-- `ASR rA, imm16` (43_shift_rotate.md R384, R390). -/
def execAsrImm16 (rA : RegNum) (imm16 : Word) (s : State) : Result State :=
  aluImm16 .asr rA imm16 s

/-- `ASR rA, rB, imm16` (43_shift_rotate.md R384, R391). -/
def execAsrRegImm16 (rA : RegNum) (rB : RegNum) (imm16 : Word) (s : State) : Result State :=
  aluRegImm16 .asr rA rB imm16 s

/-- `ASRB rA, [rB+offs16]` (43_shift_rotate.md R384, R392). -/
def execAsrbBased (rA : RegNum) (rB : RegNum) (offs16 : Word) (s : State) : Result State :=
  aluByteBased .asr rA rB offs16 s

/-- `ASR rA, [rB+offs16]` (43_shift_rotate.md R384, R393). -/
def execAsrBased (rA : RegNum) (rB : RegNum) (offs16 : Word) (s : State) : Result State :=
  aluWordBased .asr rA rB offs16 s

/-- `RLC rA, imm4` (43_shift_rotate.md R394, R395). -/
def execRlcImm4 (rA : RegNum) (imm4 : Nibble) (s : State) : Result State :=
  aluImm4 .rlc rA imm4 s

/-- `RLC rA, rB` (43_shift_rotate.md R394, R396). -/
def execRlcReg (rA : RegNum) (rB : RegNum) (s : State) : Result State :=
  aluReg .rlc rA rB s

/-- `RLC rA, XAF` (43_shift_rotate.md R394, R397). -/
def execRlcXaf (rA : RegNum) (s : State) : Result State :=
  aluXaf .rlc rA s

/-- `RLCB rA, [rB]` (43_shift_rotate.md R394, R398). -/
def execRlcbInd (rA : RegNum) (rB : RegNum) (s : State) : Result State :=
  aluByteInd .rlc rA rB s

/-- `RLC rA, [rB]` (43_shift_rotate.md R394, R399). -/
def execRlcInd (rA : RegNum) (rB : RegNum) (s : State) : Result State :=
  aluWordInd .rlc rA rB s

/-- `RLC rA, imm16` (43_shift_rotate.md R394, R400). -/
def execRlcImm16 (rA : RegNum) (imm16 : Word) (s : State) : Result State :=
  aluImm16 .rlc rA imm16 s

/-- `RLC rA, rB, imm16` (43_shift_rotate.md R394, R401). -/
def execRlcRegImm16 (rA : RegNum) (rB : RegNum) (imm16 : Word) (s : State) : Result State :=
  aluRegImm16 .rlc rA rB imm16 s

/-- `RLCB rA, [rB+offs16]` (43_shift_rotate.md R394, R402). -/
def execRlcbBased (rA : RegNum) (rB : RegNum) (offs16 : Word) (s : State) : Result State :=
  aluByteBased .rlc rA rB offs16 s

/-- `RLC rA, [rB+offs16]` (43_shift_rotate.md R394, R403). -/
def execRlcBased (rA : RegNum) (rB : RegNum) (offs16 : Word) (s : State) : Result State :=
  aluWordBased .rlc rA rB offs16 s

/-- `ROR rA, imm4` (43_shift_rotate.md R404, R405). -/
def execRorImm4 (rA : RegNum) (imm4 : Nibble) (s : State) : Result State :=
  aluImm4 .ror rA imm4 s

/-- `ROR rA, rB` (43_shift_rotate.md R404, R406). -/
def execRorReg (rA : RegNum) (rB : RegNum) (s : State) : Result State :=
  aluReg .ror rA rB s

/-- `ROR rA, XAF` (43_shift_rotate.md R404, R407). -/
def execRorXaf (rA : RegNum) (s : State) : Result State :=
  aluXaf .ror rA s

/-- `RORB rA, [rB]` (43_shift_rotate.md R404, R408). -/
def execRorbInd (rA : RegNum) (rB : RegNum) (s : State) : Result State :=
  aluByteInd .ror rA rB s

/-- `ROR rA, [rB]` (43_shift_rotate.md R404, R409). -/
def execRorInd (rA : RegNum) (rB : RegNum) (s : State) : Result State :=
  aluWordInd .ror rA rB s

/-- `ROR rA, imm16` (43_shift_rotate.md R404, R410). -/
def execRorImm16 (rA : RegNum) (imm16 : Word) (s : State) : Result State :=
  aluImm16 .ror rA imm16 s

/-- `ROR rA, rB, imm16` (43_shift_rotate.md R404, R411). -/
def execRorRegImm16 (rA : RegNum) (rB : RegNum) (imm16 : Word) (s : State) : Result State :=
  aluRegImm16 .ror rA rB imm16 s

/-- `RORB rA, [rB+offs16]` (43_shift_rotate.md R404, R412). -/
def execRorbBased (rA : RegNum) (rB : RegNum) (offs16 : Word) (s : State) : Result State :=
  aluByteBased .ror rA rB offs16 s

/-- `ROR rA, [rB+offs16]` (43_shift_rotate.md R404, R413). -/
def execRorBased (rA : RegNum) (rB : RegNum) (offs16 : Word) (s : State) : Result State :=
  aluWordBased .ror rA rB offs16 s

/-- `RRC rA, imm4` (43_shift_rotate.md R414, R415). -/
def execRrcImm4 (rA : RegNum) (imm4 : Nibble) (s : State) : Result State :=
  aluImm4 .rrc rA imm4 s

/-- `RRC rA, rB` (43_shift_rotate.md R414, R416). -/
def execRrcReg (rA : RegNum) (rB : RegNum) (s : State) : Result State :=
  aluReg .rrc rA rB s

/-- `RRC rA, XAF` (43_shift_rotate.md R414, R417). -/
def execRrcXaf (rA : RegNum) (s : State) : Result State :=
  aluXaf .rrc rA s

/-- `RRCB rA, [rB]` (43_shift_rotate.md R414, R418). -/
def execRrcbInd (rA : RegNum) (rB : RegNum) (s : State) : Result State :=
  aluByteInd .rrc rA rB s

/-- `RRC rA, [rB]` (43_shift_rotate.md R414, R419). -/
def execRrcInd (rA : RegNum) (rB : RegNum) (s : State) : Result State :=
  aluWordInd .rrc rA rB s

/-- `RRC rA, imm16` (43_shift_rotate.md R414, R420). -/
def execRrcImm16 (rA : RegNum) (imm16 : Word) (s : State) : Result State :=
  aluImm16 .rrc rA imm16 s

/-- `RRC rA, rB, imm16` (43_shift_rotate.md R414, R421). -/
def execRrcRegImm16 (rA : RegNum) (rB : RegNum) (imm16 : Word) (s : State) : Result State :=
  aluRegImm16 .rrc rA rB imm16 s

/-- `RRCB rA, [rB+offs16]` (43_shift_rotate.md R414, R422). -/
def execRrcbBased (rA : RegNum) (rB : RegNum) (offs16 : Word) (s : State) : Result State :=
  aluByteBased .rrc rA rB offs16 s

/-- `RRC rA, [rB+offs16]` (43_shift_rotate.md R414, R423). -/
def execRrcBased (rA : RegNum) (rB : RegNum) (offs16 : Word) (s : State) : Result State :=
  aluWordBased .rrc rA rB offs16 s

/-- `SHL rA, imm4` (43_shift_rotate.md R424, R425). -/
def execShlImm4 (rA : RegNum) (imm4 : Nibble) (s : State) : Result State :=
  aluImm4 .shl rA imm4 s

/-- `SHL rA, rB` (43_shift_rotate.md R424, R426). -/
def execShlReg (rA : RegNum) (rB : RegNum) (s : State) : Result State :=
  aluReg .shl rA rB s

/-- `SHL rA, XAF` (43_shift_rotate.md R424, R427). -/
def execShlXaf (rA : RegNum) (s : State) : Result State :=
  aluXaf .shl rA s

/-- `SHLB rA, [rB]` (43_shift_rotate.md R424, R428). -/
def execShlbInd (rA : RegNum) (rB : RegNum) (s : State) : Result State :=
  aluByteInd .shl rA rB s

/-- `SHL rA, [rB]` (43_shift_rotate.md R424, R429). -/
def execShlInd (rA : RegNum) (rB : RegNum) (s : State) : Result State :=
  aluWordInd .shl rA rB s

/-- `SHL rA, imm16` (43_shift_rotate.md R424, R430). -/
def execShlImm16 (rA : RegNum) (imm16 : Word) (s : State) : Result State :=
  aluImm16 .shl rA imm16 s

/-- `SHL rA, rB, imm16` (43_shift_rotate.md R424, R431). -/
def execShlRegImm16 (rA : RegNum) (rB : RegNum) (imm16 : Word) (s : State) : Result State :=
  aluRegImm16 .shl rA rB imm16 s

/-- `SHLB rA, [rB+offs16]` (43_shift_rotate.md R424, R432). -/
def execShlbBased (rA : RegNum) (rB : RegNum) (offs16 : Word) (s : State) : Result State :=
  aluByteBased .shl rA rB offs16 s

/-- `SHL rA, [rB+offs16]` (43_shift_rotate.md R424, R433). -/
def execShlBased (rA : RegNum) (rB : RegNum) (offs16 : Word) (s : State) : Result State :=
  aluWordBased .shl rA rB offs16 s

/-- `SHR rA, imm4` (43_shift_rotate.md R434, R435). -/
def execShrImm4 (rA : RegNum) (imm4 : Nibble) (s : State) : Result State :=
  aluImm4 .shr rA imm4 s

/-- `SHR rA, rB` (43_shift_rotate.md R434, R436). -/
def execShrReg (rA : RegNum) (rB : RegNum) (s : State) : Result State :=
  aluReg .shr rA rB s

/-- `SHR rA, XAF` (43_shift_rotate.md R434, R437). -/
def execShrXaf (rA : RegNum) (s : State) : Result State :=
  aluXaf .shr rA s

/-- `SHRB rA, [rB]` (43_shift_rotate.md R434, R438). -/
def execShrbInd (rA : RegNum) (rB : RegNum) (s : State) : Result State :=
  aluByteInd .shr rA rB s

/-- `SHR rA, [rB]` (43_shift_rotate.md R434, R439). -/
def execShrInd (rA : RegNum) (rB : RegNum) (s : State) : Result State :=
  aluWordInd .shr rA rB s

/-- `SHR rA, imm16` (43_shift_rotate.md R434, R440). -/
def execShrImm16 (rA : RegNum) (imm16 : Word) (s : State) : Result State :=
  aluImm16 .shr rA imm16 s

/-- `SHR rA, rB, imm16` (43_shift_rotate.md R434, R441). -/
def execShrRegImm16 (rA : RegNum) (rB : RegNum) (imm16 : Word) (s : State) : Result State :=
  aluRegImm16 .shr rA rB imm16 s

/-- `SHRB rA, [rB+offs16]` (43_shift_rotate.md R434, R442). -/
def execShrbBased (rA : RegNum) (rB : RegNum) (offs16 : Word) (s : State) : Result State :=
  aluByteBased .shr rA rB offs16 s

/-- `SHR rA, [rB+offs16]` (43_shift_rotate.md R434, R443). -/
def execShrBased (rA : RegNum) (rB : RegNum) (offs16 : Word) (s : State) : Result State :=
  aluWordBased .shr rA rB offs16 s

end Sys2Proof.Machine
end

