-- ==== Sys2Proof/Machine/StackFlags.lean ====
section
/-! DEFINITION. Machine/StackFlags.lean: the meanings of PUSH, PUSHF, POP, POPF and the single-flag instructions (46_stack_flags.md), one for each
form, over the shared operations of Ops, Flags and Operands.
-/
namespace Sys2Proof.Machine

/-- `PUSH rA` (46_stack_flags.md R513): rA is read after R15 is decremented (notes/assumptions/26.md). -/
def execPush (rA : RegNum) (s : State) : Result State :=
  andThen (push s (s.decSp.reg rA)) fun s' => .next (s'.advance 2)

/-- `PUSHF` (46_stack_flags.md R514). -/
def execPushf (s : State) : Result State :=
  andThen (push s (s.fr.toWord s.params.frReservedRead)) fun s' => .next (s'.advance 2)

/-- `POP rA` (46_stack_flags.md R511): rA is written before R15 is incremented (notes/assumptions/26.md). -/
def execPop (rA : RegNum) (s : State) : Result State :=
  andThen (stackTop s) fun v => .next (((s.setReg rA v).incSp).advance 2)

/-- `POPF` (46_stack_flags.md R512). -/
def execPopf (s : State) : Result State :=
  andThen (stackTop s) fun v => .next (((s.withFr (Flags.ofWord v)).incSp).advance 2)

/-- `CLC` (46_stack_flags.md R515). -/
def execClc (s : State) : Result State :=
  .next ((s.withCF false).advance 2)

/-- `STC` (46_stack_flags.md R517). -/
def execStc (s : State) : Result State :=
  .next ((s.withCF true).advance 2)

/-- `CLI` (46_stack_flags.md R516). -/
def execCli (s : State) : Result State :=
  .next ((s.withIF false).advance 2)

/-- `STI` (46_stack_flags.md R518). -/
def execSti (s : State) : Result State :=
  .next ((s.withIF true).advance 2)

end Sys2Proof.Machine
end

