-- ==== Sys2Proof/Machine/System.lean ====
section
/-! DEFINITION. Machine/System.lean: the meanings of CCB, IRC, NOP, RETI (47_system.md), one for each
form, over the shared operations of Ops, Flags and Operands.
-/
namespace Sys2Proof.Machine

/-- `NOP` (47_system.md R534). -/
def execNop (s : State) : Result State :=
  .next (s.advance 2)

/-- `RETI` (47_system.md R535). -/
def execReti (s : State) : Result State :=
  returnFromInterrupt s

/-- `CCB [rB]` (47_system.md R531). -/
def execCcbInd (rB : RegNum) (s : State) : Result State :=
  clearCacheBlock (s.reg rB) 2 s

/-- `CCB [rB+offs16]` (47_system.md R532). -/
def execCcbBased (rB : RegNum) (offs16 : Word) (s : State) : Result State :=
  clearCacheBlock (s.based rB offs16) 4 s

/-- `IRC offs16` (47_system.md R533): forced when an interrupt is accepted, refused when fetched. -/
def execIrc (offs16 : Word) (s : State) : Result State :=
  takeInterrupt offs16 s

end Sys2Proof.Machine
end

