-- ==== Sys2Proof/Machine/Dispatch.lean ====
section
/-! DEFINITION. Machine/Dispatch.lean: which meaning belongs to which instruction.
-/
namespace Sys2Proof.Machine

def exec (i : Instr) (s : State) : Host.Outcome State Fault Refusal :=
  match i with
  | .movImm4 rA imm4 => Sys2Proof.Machine.execMovImm4 rA imm4 s
  | .movReg rA rB => Sys2Proof.Machine.execMovReg rA rB s
  | .movXaf rA => Sys2Proof.Machine.execMovXaf rA s
  | .movbInd rA rB => Sys2Proof.Machine.execMovbInd rA rB s
  | .movsInd rA rB => Sys2Proof.Machine.execMovsInd rA rB s
  | .movInd rA rB => Sys2Proof.Machine.execMovInd rA rB s
  | .movImm16 rA imm16 => Sys2Proof.Machine.execMovImm16 rA imm16 s
  | .movbBased rA rB offs16 => Sys2Proof.Machine.execMovbBased rA rB offs16 s
  | .movsBased rA rB offs16 => Sys2Proof.Machine.execMovsBased rA rB offs16 s
  | .movBased rA rB offs16 => Sys2Proof.Machine.execMovBased rA rB offs16 s
  | .addImm4 rA imm4 => Sys2Proof.Machine.execAddImm4 rA imm4 s
  | .addReg rA rB => Sys2Proof.Machine.execAddReg rA rB s
  | .addXaf rA => Sys2Proof.Machine.execAddXaf rA s
  | .addbInd rA rB => Sys2Proof.Machine.execAddbInd rA rB s
  | .addsInd rA rB => Sys2Proof.Machine.execAddsInd rA rB s
  | .addInd rA rB => Sys2Proof.Machine.execAddInd rA rB s
  | .addImm16 rA imm16 => Sys2Proof.Machine.execAddImm16 rA imm16 s
  | .addRegImm16 rA rB imm16 => Sys2Proof.Machine.execAddRegImm16 rA rB imm16 s
  | .addbBased rA rB offs16 => Sys2Proof.Machine.execAddbBased rA rB offs16 s
  | .addsBased rA rB offs16 => Sys2Proof.Machine.execAddsBased rA rB offs16 s
  | .addBased rA rB offs16 => Sys2Proof.Machine.execAddBased rA rB offs16 s
  | .adcImm4 rA imm4 => Sys2Proof.Machine.execAdcImm4 rA imm4 s
  | .adcReg rA rB => Sys2Proof.Machine.execAdcReg rA rB s
  | .adcXaf rA => Sys2Proof.Machine.execAdcXaf rA s
  | .adcbInd rA rB => Sys2Proof.Machine.execAdcbInd rA rB s
  | .adcsInd rA rB => Sys2Proof.Machine.execAdcsInd rA rB s
  | .adcInd rA rB => Sys2Proof.Machine.execAdcInd rA rB s
  | .adcImm16 rA imm16 => Sys2Proof.Machine.execAdcImm16 rA imm16 s
  | .adcRegImm16 rA rB imm16 => Sys2Proof.Machine.execAdcRegImm16 rA rB imm16 s
  | .adcbBased rA rB offs16 => Sys2Proof.Machine.execAdcbBased rA rB offs16 s
  | .adcsBased rA rB offs16 => Sys2Proof.Machine.execAdcsBased rA rB offs16 s
  | .adcBased rA rB offs16 => Sys2Proof.Machine.execAdcBased rA rB offs16 s
  | .cmpImm4 rA imm4 => Sys2Proof.Machine.execCmpImm4 rA imm4 s
  | .cmpReg rA rB => Sys2Proof.Machine.execCmpReg rA rB s
  | .cmpXaf rA => Sys2Proof.Machine.execCmpXaf rA s
  | .cmpbInd rA rB => Sys2Proof.Machine.execCmpbInd rA rB s
  | .cmpsInd rA rB => Sys2Proof.Machine.execCmpsInd rA rB s
  | .cmpInd rA rB => Sys2Proof.Machine.execCmpInd rA rB s
  | .cmpImm16 rA imm16 => Sys2Proof.Machine.execCmpImm16 rA imm16 s
  | .cmpRegImm16 rA rB imm16 => Sys2Proof.Machine.execCmpRegImm16 rA rB imm16 s
  | .cmpbBased rA rB offs16 => Sys2Proof.Machine.execCmpbBased rA rB offs16 s
  | .cmpsBased rA rB offs16 => Sys2Proof.Machine.execCmpsBased rA rB offs16 s
  | .cmpBased rA rB offs16 => Sys2Proof.Machine.execCmpBased rA rB offs16 s
  | .subImm4 rA imm4 => Sys2Proof.Machine.execSubImm4 rA imm4 s
  | .subReg rA rB => Sys2Proof.Machine.execSubReg rA rB s
  | .subXaf rA => Sys2Proof.Machine.execSubXaf rA s
  | .subbInd rA rB => Sys2Proof.Machine.execSubbInd rA rB s
  | .subsInd rA rB => Sys2Proof.Machine.execSubsInd rA rB s
  | .subInd rA rB => Sys2Proof.Machine.execSubInd rA rB s
  | .subImm16 rA imm16 => Sys2Proof.Machine.execSubImm16 rA imm16 s
  | .subRegImm16 rA rB imm16 => Sys2Proof.Machine.execSubRegImm16 rA rB imm16 s
  | .subbBased rA rB offs16 => Sys2Proof.Machine.execSubbBased rA rB offs16 s
  | .subsBased rA rB offs16 => Sys2Proof.Machine.execSubsBased rA rB offs16 s
  | .subBased rA rB offs16 => Sys2Proof.Machine.execSubBased rA rB offs16 s
  | .sbbImm4 rA imm4 => Sys2Proof.Machine.execSbbImm4 rA imm4 s
  | .sbbReg rA rB => Sys2Proof.Machine.execSbbReg rA rB s
  | .sbbXaf rA => Sys2Proof.Machine.execSbbXaf rA s
  | .sbbbInd rA rB => Sys2Proof.Machine.execSbbbInd rA rB s
  | .sbbsInd rA rB => Sys2Proof.Machine.execSbbsInd rA rB s
  | .sbbInd rA rB => Sys2Proof.Machine.execSbbInd rA rB s
  | .sbbImm16 rA imm16 => Sys2Proof.Machine.execSbbImm16 rA imm16 s
  | .sbbRegImm16 rA rB imm16 => Sys2Proof.Machine.execSbbRegImm16 rA rB imm16 s
  | .sbbbBased rA rB offs16 => Sys2Proof.Machine.execSbbbBased rA rB offs16 s
  | .sbbsBased rA rB offs16 => Sys2Proof.Machine.execSbbsBased rA rB offs16 s
  | .sbbBased rA rB offs16 => Sys2Proof.Machine.execSbbBased rA rB offs16 s
  | .andImm4 rA imm4 => Sys2Proof.Machine.execAndImm4 rA imm4 s
  | .andReg rA rB => Sys2Proof.Machine.execAndReg rA rB s
  | .andXaf rA => Sys2Proof.Machine.execAndXaf rA s
  | .andbInd rA rB => Sys2Proof.Machine.execAndbInd rA rB s
  | .andsInd rA rB => Sys2Proof.Machine.execAndsInd rA rB s
  | .andInd rA rB => Sys2Proof.Machine.execAndInd rA rB s
  | .andImm16 rA imm16 => Sys2Proof.Machine.execAndImm16 rA imm16 s
  | .andRegImm16 rA rB imm16 => Sys2Proof.Machine.execAndRegImm16 rA rB imm16 s
  | .andbBased rA rB offs16 => Sys2Proof.Machine.execAndbBased rA rB offs16 s
  | .andsBased rA rB offs16 => Sys2Proof.Machine.execAndsBased rA rB offs16 s
  | .andBased rA rB offs16 => Sys2Proof.Machine.execAndBased rA rB offs16 s
  | .orImm4 rA imm4 => Sys2Proof.Machine.execOrImm4 rA imm4 s
  | .orReg rA rB => Sys2Proof.Machine.execOrReg rA rB s
  | .orXaf rA => Sys2Proof.Machine.execOrXaf rA s
  | .orbInd rA rB => Sys2Proof.Machine.execOrbInd rA rB s
  | .orsInd rA rB => Sys2Proof.Machine.execOrsInd rA rB s
  | .orInd rA rB => Sys2Proof.Machine.execOrInd rA rB s
  | .orImm16 rA imm16 => Sys2Proof.Machine.execOrImm16 rA imm16 s
  | .orRegImm16 rA rB imm16 => Sys2Proof.Machine.execOrRegImm16 rA rB imm16 s
  | .orbBased rA rB offs16 => Sys2Proof.Machine.execOrbBased rA rB offs16 s
  | .orsBased rA rB offs16 => Sys2Proof.Machine.execOrsBased rA rB offs16 s
  | .orBased rA rB offs16 => Sys2Proof.Machine.execOrBased rA rB offs16 s
  | .xorImm4 rA imm4 => Sys2Proof.Machine.execXorImm4 rA imm4 s
  | .xorReg rA rB => Sys2Proof.Machine.execXorReg rA rB s
  | .xorXaf rA => Sys2Proof.Machine.execXorXaf rA s
  | .xorbInd rA rB => Sys2Proof.Machine.execXorbInd rA rB s
  | .xorsInd rA rB => Sys2Proof.Machine.execXorsInd rA rB s
  | .xorInd rA rB => Sys2Proof.Machine.execXorInd rA rB s
  | .xorImm16 rA imm16 => Sys2Proof.Machine.execXorImm16 rA imm16 s
  | .xorRegImm16 rA rB imm16 => Sys2Proof.Machine.execXorRegImm16 rA rB imm16 s
  | .xorbBased rA rB offs16 => Sys2Proof.Machine.execXorbBased rA rB offs16 s
  | .xorsBased rA rB offs16 => Sys2Proof.Machine.execXorsBased rA rB offs16 s
  | .xorBased rA rB offs16 => Sys2Proof.Machine.execXorBased rA rB offs16 s
  | .asrImm4 rA imm4 => Sys2Proof.Machine.execAsrImm4 rA imm4 s
  | .asrReg rA rB => Sys2Proof.Machine.execAsrReg rA rB s
  | .asrXaf rA => Sys2Proof.Machine.execAsrXaf rA s
  | .asrbInd rA rB => Sys2Proof.Machine.execAsrbInd rA rB s
  | .asrInd rA rB => Sys2Proof.Machine.execAsrInd rA rB s
  | .asrImm16 rA imm16 => Sys2Proof.Machine.execAsrImm16 rA imm16 s
  | .asrRegImm16 rA rB imm16 => Sys2Proof.Machine.execAsrRegImm16 rA rB imm16 s
  | .asrbBased rA rB offs16 => Sys2Proof.Machine.execAsrbBased rA rB offs16 s
  | .asrBased rA rB offs16 => Sys2Proof.Machine.execAsrBased rA rB offs16 s
  | .rlcImm4 rA imm4 => Sys2Proof.Machine.execRlcImm4 rA imm4 s
  | .rlcReg rA rB => Sys2Proof.Machine.execRlcReg rA rB s
  | .rlcXaf rA => Sys2Proof.Machine.execRlcXaf rA s
  | .rlcbInd rA rB => Sys2Proof.Machine.execRlcbInd rA rB s
  | .rlcInd rA rB => Sys2Proof.Machine.execRlcInd rA rB s
  | .rlcImm16 rA imm16 => Sys2Proof.Machine.execRlcImm16 rA imm16 s
  | .rlcRegImm16 rA rB imm16 => Sys2Proof.Machine.execRlcRegImm16 rA rB imm16 s
  | .rlcbBased rA rB offs16 => Sys2Proof.Machine.execRlcbBased rA rB offs16 s
  | .rlcBased rA rB offs16 => Sys2Proof.Machine.execRlcBased rA rB offs16 s
  | .rorImm4 rA imm4 => Sys2Proof.Machine.execRorImm4 rA imm4 s
  | .rorReg rA rB => Sys2Proof.Machine.execRorReg rA rB s
  | .rorXaf rA => Sys2Proof.Machine.execRorXaf rA s
  | .rorbInd rA rB => Sys2Proof.Machine.execRorbInd rA rB s
  | .rorInd rA rB => Sys2Proof.Machine.execRorInd rA rB s
  | .rorImm16 rA imm16 => Sys2Proof.Machine.execRorImm16 rA imm16 s
  | .rorRegImm16 rA rB imm16 => Sys2Proof.Machine.execRorRegImm16 rA rB imm16 s
  | .rorbBased rA rB offs16 => Sys2Proof.Machine.execRorbBased rA rB offs16 s
  | .rorBased rA rB offs16 => Sys2Proof.Machine.execRorBased rA rB offs16 s
  | .rrcImm4 rA imm4 => Sys2Proof.Machine.execRrcImm4 rA imm4 s
  | .rrcReg rA rB => Sys2Proof.Machine.execRrcReg rA rB s
  | .rrcXaf rA => Sys2Proof.Machine.execRrcXaf rA s
  | .rrcbInd rA rB => Sys2Proof.Machine.execRrcbInd rA rB s
  | .rrcInd rA rB => Sys2Proof.Machine.execRrcInd rA rB s
  | .rrcImm16 rA imm16 => Sys2Proof.Machine.execRrcImm16 rA imm16 s
  | .rrcRegImm16 rA rB imm16 => Sys2Proof.Machine.execRrcRegImm16 rA rB imm16 s
  | .rrcbBased rA rB offs16 => Sys2Proof.Machine.execRrcbBased rA rB offs16 s
  | .rrcBased rA rB offs16 => Sys2Proof.Machine.execRrcBased rA rB offs16 s
  | .shlImm4 rA imm4 => Sys2Proof.Machine.execShlImm4 rA imm4 s
  | .shlReg rA rB => Sys2Proof.Machine.execShlReg rA rB s
  | .shlXaf rA => Sys2Proof.Machine.execShlXaf rA s
  | .shlbInd rA rB => Sys2Proof.Machine.execShlbInd rA rB s
  | .shlInd rA rB => Sys2Proof.Machine.execShlInd rA rB s
  | .shlImm16 rA imm16 => Sys2Proof.Machine.execShlImm16 rA imm16 s
  | .shlRegImm16 rA rB imm16 => Sys2Proof.Machine.execShlRegImm16 rA rB imm16 s
  | .shlbBased rA rB offs16 => Sys2Proof.Machine.execShlbBased rA rB offs16 s
  | .shlBased rA rB offs16 => Sys2Proof.Machine.execShlBased rA rB offs16 s
  | .shrImm4 rA imm4 => Sys2Proof.Machine.execShrImm4 rA imm4 s
  | .shrReg rA rB => Sys2Proof.Machine.execShrReg rA rB s
  | .shrXaf rA => Sys2Proof.Machine.execShrXaf rA s
  | .shrbInd rA rB => Sys2Proof.Machine.execShrbInd rA rB s
  | .shrInd rA rB => Sys2Proof.Machine.execShrInd rA rB s
  | .shrImm16 rA imm16 => Sys2Proof.Machine.execShrImm16 rA imm16 s
  | .shrRegImm16 rA rB imm16 => Sys2Proof.Machine.execShrRegImm16 rA rB imm16 s
  | .shrbBased rA rB offs16 => Sys2Proof.Machine.execShrbBased rA rB offs16 s
  | .shrBased rA rB offs16 => Sys2Proof.Machine.execShrBased rA rB offs16 s
  | .nop => Sys2Proof.Machine.execNop s
  | .jmpi rA => Sys2Proof.Machine.execJmpi rA s
  | .calli rA => Sys2Proof.Machine.execCalli rA s
  | .ret => Sys2Proof.Machine.execRet s
  | .reti => Sys2Proof.Machine.execReti s
  | .not rA => Sys2Proof.Machine.execNot rA s
  | .neg rA => Sys2Proof.Machine.execNeg rA s
  | .inc rA => Sys2Proof.Machine.execInc rA s
  | .dec rA => Sys2Proof.Machine.execDec rA s
  | .push rA => Sys2Proof.Machine.execPush rA s
  | .pushf => Sys2Proof.Machine.execPushf s
  | .pop rA => Sys2Proof.Machine.execPop rA s
  | .popf => Sys2Proof.Machine.execPopf s
  | .clc => Sys2Proof.Machine.execClc s
  | .stc => Sys2Proof.Machine.execStc s
  | .cli => Sys2Proof.Machine.execCli s
  | .sti => Sys2Proof.Machine.execSti s
  | .mulu rA rB => Sys2Proof.Machine.execMulu rA rB s
  | .muls rA rB => Sys2Proof.Machine.execMuls rA rB s
  | .mhr rA hrB => Sys2Proof.Machine.execMhr rA hrB s
  | .stbInd rA rB => Sys2Proof.Machine.execStbInd rA rB s
  | .stInd rA rB => Sys2Proof.Machine.execStInd rA rB s
  | .ccbInd rB => Sys2Proof.Machine.execCcbInd rB s
  | .stbBased rA rB offs16 => Sys2Proof.Machine.execStbBased rA rB offs16 s
  | .stBased rA rB offs16 => Sys2Proof.Machine.execStBased rA rB offs16 s
  | .ccbBased rB offs16 => Sys2Proof.Machine.execCcbBased rB offs16 s
  | .jz offs16 => Sys2Proof.Machine.execJz offs16 s
  | .jnz offs16 => Sys2Proof.Machine.execJnz offs16 s
  | .jc offs16 => Sys2Proof.Machine.execJc offs16 s
  | .jnc offs16 => Sys2Proof.Machine.execJnc offs16 s
  | .js offs16 => Sys2Proof.Machine.execJs offs16 s
  | .jns offs16 => Sys2Proof.Machine.execJns offs16 s
  | .jo offs16 => Sys2Proof.Machine.execJo offs16 s
  | .jno offs16 => Sys2Proof.Machine.execJno offs16 s
  | .jge offs16 => Sys2Proof.Machine.execJge offs16 s
  | .jlt offs16 => Sys2Proof.Machine.execJlt offs16 s
  | .jgt offs16 => Sys2Proof.Machine.execJgt offs16 s
  | .jle offs16 => Sys2Proof.Machine.execJle offs16 s
  | .jat offs16 => Sys2Proof.Machine.execJat offs16 s
  | .jbe offs16 => Sys2Proof.Machine.execJbe offs16 s
  | .jmp offs16 => Sys2Proof.Machine.execJmp offs16 s
  | .jmpa offs16 => Sys2Proof.Machine.execJmpa offs16 s
  | .call offs16 => Sys2Proof.Machine.execCall offs16 s
  | .calla offs16 => Sys2Proof.Machine.execCalla offs16 s
  | .irc offs16 => Sys2Proof.Machine.execIrc offs16 s
  | .stsInd rA rB => Sys2Proof.Machine.execStsInd rA rB s
  | .stsBased rA rB offs16 => Sys2Proof.Machine.execStsBased rA rB offs16 s
  | .jeq offs16 => Sys2Proof.Machine.execJeq offs16 s
  | .jne offs16 => Sys2Proof.Machine.execJne offs16 s
  | .jbt offs16 => Sys2Proof.Machine.execJbt offs16 s
  | .jae offs16 => Sys2Proof.Machine.execJae offs16 s

end Sys2Proof.Machine
end

