-- ==== Sys2Proof/Machine/Fetch.lean ====
section
/-! DEFINITION. Machine/Fetch.lean: instruction fetch at the pc (20_memory.md R65, R76; 30_encoding.md R102, R121, R123) and the
placing of one instruction there.
-/
namespace Sys2Proof.Machine

/-- One byte of the instruction stream. A byte that the program has written since reset is refused (20_memory.md R76); any
other is read as data is. -/
def fetchByte (s : State) (a : Word) : Result Byte :=
  if s.written.contains a.toNat then .refused (.fetchOfWrittenByte a) else readByte s a

/-- One halfword of the instruction stream, big endian (20_memory.md R65), at any address under `ALIGN_POLICY = allow` (R66). -/
def fetchHalfword (s : State) (a : Word) : Result Word :=
  if s.misaligned a then .refused (.misalignedAccess a)
  else andThen (fetchByte s a) fun hi => andThen (fetchByte s (a + 1)) fun lo => .next (halfword hi lo)

/-- Whether an instruction is the internal IRC (30_encoding.md R123). -/
def isInternal : Instr → Bool
  | .irc _ => true
  | _ => false

/-- The instruction of a halfword pair, the internal one refused. -/
def decodeFetched (w imm : Word) : Result Instr :=
  match decodeWords w imm with
  | none => .refused (.unassignedOpcode w)
  | some i => if isInternal i then .refused .ircFetched else .next i

/-- The instruction at the pc: the opcode halfword, and the second halfword only when bit 15 is set (30_encoding.md R102). An
unassigned opcode or IRC is refused before the second halfword is read (notes/assumptions/35.md). -/
def fetch (s : State) : Result Instr :=
  andThen (fetchHalfword s s.pc) fun w =>
    andThen (decodeFetched w 0) fun i =>
      if isLong w then andThen (fetchHalfword s (s.pc + 2)) fun imm => decodeFetched w imm
      else .next i

/-- The two halfwords `ws` put at the pc as program image. -/
def State.placeAtPc (s : State) (ws : Word × Word) : State := s.load s.pc (wordBytes ws.1 ++ wordBytes ws.2)

/-- No request at the coming boundary that would be taken instead of the fetch. -/
def State.withoutRequest (s : State) : State :=
  match s.accepted with
  | some _ => s.withIrq (none :: s.irq.tail)
  | none => s

end Sys2Proof.Machine
end

