-- ==== Sys2Proof/Machine/Step.lean ====
section
/-! DEFINITION. Machine/Step.lean: one step of the processor core (60_exceptions.md R601, R602): it accepts an interrupt, which
is the forced instruction IRC with the environment's handler address, or executes the instruction at the pc.
-/
namespace Sys2Proof.Machine

/-- One step. -/
def step (s : State) : Host.Outcome State Fault Refusal :=
  match s.accepted with
  | some v => exec (.irc v) s.pastBoundary
  | none => andThen (fetch s) fun i => exec i s.pastBoundary

/-- `s` with the instruction whose bits are `w` (numbered as in spec/opcode_table.json, the bits above `nbits` zero) stored
at the pc as program image, and no request taken at the coming boundary (notes/assumptions/32.md). -/
def State.withFetchWord (s : State) (nbits w : Nat) : State := (s.placeAtPc (tableWords nbits w)).withoutRequest

end Sys2Proof.Machine
end

