-- ==== Sys2Proof/Safety.lean ====
section
/-! DEFINITION. Safety.lean: the words in which claims are said: the invariant of the machine's lists, the end of a run
(70_reset_and_hazards.md R705), steps that go on, what an instruction leaves unchanged, and the forms of the ALU
instructions with their operands written from 30_encoding.md R106 to R117, apart from the meanings.
-/
namespace Sys2Proof.Machine

/-! ### Runs -/

/-- A rising list of addresses of the address space. -/
abbrev addressList (l : List Nat) : Prop := l.Pairwise (· < ·) ∧ ∀ a ∈ l, a < 65536

/-- What every step keeps: memory is canonical, and the lists of written and of invalidated addresses are rising lists of
addresses, every written byte having a value (20_memory.md R60, R76; 47_system.md R531). -/
structure State.Inv (s : State) : Prop where
  memory : s.mem.wf
  written : addressList s.written
  writtenHasValue : ∀ a ∈ s.written, s.mem.get a ≠ none
  icache : addressList s.icacheCleared
  dcache : addressList s.dcacheCleared

/-- No interrupt can arrive any more: IF is clear, or the environment drives no request at this or a later boundary. -/
def State.quiet (s : State) : Prop := s.fr.IF = false ∨ ∀ r ∈ s.irq, r = none

/-- The core is about to execute a `JMP` to its own address, and no interrupt can arrive any more: the spec's end of a run
(70_reset_and_hazards.md R705). It is a predicate, not a stop of the machine (notes/assumptions/27.md). -/
def State.atEnd (s : State) : Prop := s.quiet ∧ fetch s = .next (.jmp 0xFFFE)

/-- The state after `k` steps, where none of them stops. -/
def stepsTo : Nat → State → Result State
  | 0, s => .next s
  | k + 1, s => andThen (step s) (stepsTo k)

/-- The next step is neither a fault nor a refusal. -/
def State.goesOn (s : State) : Prop := ∃ t, step s = .next t

/-- The `k` next steps are neither faults nor refusals. -/
def State.safeFor : Nat → State → Prop
  | 0, _ => True
  | k + 1, s => ∃ t, step s = .next t ∧ t.safeFor k

/-! ### What is left unchanged -/

/-- From `s` to `t`, every register outside `rs` and every byte of memory outside `as` reads as before, exactly the bytes
`as` have been added to the written ones, and the cache records, the environment's drive and the parameters are the
same. -/
structure Frame (rs : List RegNum) (as : List Word) (s t : State) : Prop where
  registers : ∀ q, q ∉ rs → t.reg q = s.reg q
  bytes : ∀ a, a ∉ as → t.byteAt a = s.byteAt a
  written : ∀ a : Word, a.toNat ∈ t.written ↔ a.toNat ∈ s.written ∨ a ∈ as
  icache : t.icacheCleared = s.icacheCleared
  dcache : t.dcacheCleared = s.dcacheCleared
  irq : t.irq = s.irq
  params : t.params = s.params

/-! ### Accesses on the platform's memory map -/

/-- `MEM_MAP` has RAM or ROM at the address. -/
def State.readable (s : State) (a : Word) : Bool := s.kindAt a == some .ram || s.kindAt a == some .rom

/-- The byte that a load at the address gives, none where it gives none (20_memory.md R62; 60_exceptions.md R610). -/
def State.byteRead (s : State) (a : Word) : Option Byte := if s.readable a then s.byteAt a else none

/-- The big-endian word that a 16-bit load at the address gives, none where it gives none (20_memory.md R62, R66). -/
def State.wordAt (s : State) (a : Word) : Option Word :=
  if s.misaligned a then none
  else match s.byteRead a, s.byteRead (a + 1) with
    | some hi, some lo => some (hi ++ lo)
    | _, _ => none

/-- A 16-bit store at the address goes to RAM and is not refused for its alignment. -/
abbrev State.takesWord (s : State) (a : Word) : Prop :=
  s.misaligned a = false ∧ s.kindAt a = some .ram ∧ s.kindAt (a + 1) = some .ram

/-- `x` is the refusal of an access at `a`, where `s` has a device or nothing (20_memory.md R70; 60_exceptions.md R610). -/
def State.NoMemoryStop {α : Type} (s : State) (a : Word) (x : Result α) : Prop :=
  (s.kindAt a = some .device ∧ x = .refused (.deviceAccess a)) ∨
  (s.kindAt a = none ∧ x = .refused (.outsideMemoryMap a))

/-- `x` is the stop of a byte read at `a`, which gives no value in `s`: RAM or ROM without a value there, a device, nothing. -/
def State.ByteStop {α : Type} (s : State) (a : Word) (x : Result α) : Prop :=
  (s.readable a = true ∧ s.byteAt a = none ∧ x = .fault (.unwrittenMemory a)) ∨ s.NoMemoryStop a x

/-- `x` is the stop of a 16-bit read at `a`: refused for its alignment, or stopped at the first of its two bytes that gives no
value (20_memory.md R62, R66; notes/assumptions/34.md). -/
def State.WordStop {α : Type} (s : State) (a : Word) (x : Result α) : Prop :=
  (s.misaligned a = true ∧ x = .refused (.misalignedAccess a)) ∨
  (s.misaligned a = false ∧ (s.ByteStop a x ∨ ((s.byteRead a).isSome = true ∧ s.ByteStop (a + 1) x)))

/-- The map has RAM at every address and no access is refused for its alignment, as under the defaults of R6. -/
def State.plainMemory (s : State) : Prop := s.params.alignPolicy = .allow ∧ ∀ a, s.kindAt a = some .ram

/-- `s` after a relative jump: taken to `pc +16 2 +16 o` where `c` holds, else on to the next instruction
(45_control.md R470). -/
def State.branch (s : State) (c : Bool) (o : Word) : State := { s with pc := if c then s.pc + 2 + o else s.pc + 4 }

/-- The bytes `bs` stand in RAM or ROM from `a` on, none of them written by the program. -/
def State.imageAt (s : State) (a : Word) : List Byte → Prop
  | [] => True
  | b :: bs => s.byteRead a = some b ∧ a.toNat ∉ s.written ∧ s.imageAt (a + 1) bs

/-! ### The forms of the ALU instructions -/

/-- An operand form with its operands (30_encoding.md R103, R107 to R117). -/
inductive AluForm where
  /-- mode 1, R107 -/
  | imm4 (rA : RegNum) (v : Nibble)
  /-- mode 2, R108 -/
  | reg (rA rB : RegNum)
  /-- mode 3, R109 -/
  | xaf (rA : RegNum)
  /-- mode 4, R110 -/
  | byteInd (rA rB : RegNum)
  /-- mode 5, R111 -/
  | sbyteInd (rA rB : RegNum)
  /-- mode 6, R112 -/
  | wordInd (rA rB : RegNum)
  /-- mode 8, R113 -/
  | imm16 (rA : RegNum) (v : Word)
  /-- mode B, R114 -/
  | regImm16 (rA rB : RegNum) (v : Word)
  /-- mode C, R115 -/
  | byteBased (rA rB : RegNum) (o : Word)
  /-- mode D, R116 -/
  | sbyteBased (rA rB : RegNum) (o : Word)
  /-- mode E, R117 -/
  | wordBased (rA rB : RegNum) (o : Word)
  deriving DecidableEq, Repr

/-- The register a form writes. -/
def AluForm.dest : AluForm → RegNum
  | .imm4 rA _ => rA
  | .reg rA _ => rA
  | .xaf rA => rA
  | .byteInd rA _ => rA
  | .sbyteInd rA _ => rA
  | .wordInd rA _ => rA
  | .imm16 rA _ => rA
  | .regImm16 rA _ _ => rA
  | .byteBased rA _ _ => rA
  | .sbyteBased rA _ _ => rA
  | .wordBased rA _ _ => rA

/-- The value `a` of a form: rA, in the three-operand form rB. -/
def AluForm.first (s : State) : AluForm → Word
  | .imm4 rA _ => s.reg rA
  | .reg rA _ => s.reg rA
  | .xaf rA => s.reg rA
  | .byteInd rA _ => s.reg rA
  | .sbyteInd rA _ => s.reg rA
  | .wordInd rA _ => s.reg rA
  | .imm16 rA _ => s.reg rA
  | .regImm16 _ rB _ => s.reg rB
  | .byteBased rA _ _ => s.reg rA
  | .sbyteBased rA _ _ => s.reg rA
  | .wordBased rA _ _ => s.reg rA

/-- The value `b` of a form, operand B; none where memory gives it none. -/
def AluForm.second (s : State) : AluForm → Option Word
  | .imm4 _ v => some (match s.params.imm4Ext with
    | .zero => v.setWidth 16
    | .sign => v.signExtend 16)
  | .reg _ rB => some (s.reg rB)
  | .xaf _ => some (if s.fr.AF then 0xFFFF else 0x0000)
  | .byteInd _ rB => (s.byteRead (s.reg rB)).map (fun b => b.setWidth 16)
  | .sbyteInd _ rB => (s.byteRead (s.reg rB)).map (fun b => b.signExtend 16)
  | .wordInd _ rB => s.wordAt (s.reg rB)
  | .imm16 _ v => some v
  | .regImm16 _ _ v => some v
  | .byteBased _ rB o => (s.byteRead (s.reg rB + o)).map (fun b => b.setWidth 16)
  | .sbyteBased _ rB o => (s.byteRead (s.reg rB + o)).map (fun b => b.signExtend 16)
  | .wordBased _ rB o => s.wordAt (s.reg rB + o)

/-- `x` is the stop of reading operand B of a form, at the address of that operand. -/
def AluForm.OperandStop {α : Type} (s : State) (x : Result α) : AluForm → Prop
  | .imm4 _ _ => False
  | .reg _ _ => False
  | .xaf _ => False
  | .byteInd _ rB => s.ByteStop (s.reg rB) x
  | .sbyteInd _ rB => s.ByteStop (s.reg rB) x
  | .wordInd _ rB => s.WordStop (s.reg rB) x
  | .imm16 _ _ => False
  | .regImm16 _ _ _ => False
  | .byteBased _ rB o => s.ByteStop (s.reg rB + o) x
  | .sbyteBased _ rB o => s.ByteStop (s.reg rB + o) x
  | .wordBased _ rB o => s.WordStop (s.reg rB + o) x

/-- The length of a form in bytes. -/
def AluForm.length : AluForm → Word
  | .imm4 _ _ => 2
  | .reg _ _ => 2
  | .xaf _ => 2
  | .byteInd _ _ => 2
  | .sbyteInd _ _ => 2
  | .wordInd _ _ => 2
  | .imm16 _ _ => 4
  | .regImm16 _ _ _ => 4
  | .byteBased _ _ _ => 4
  | .sbyteBased _ _ _ => 4
  | .wordBased _ _ _ => 4

/-- MOV in each form it has (40_move_store.md R201). -/
def AluForm.mov : AluForm → Option Instr
  | .imm4 rA v => some (.movImm4 rA v)
  | .reg rA rB => some (.movReg rA rB)
  | .xaf rA => some (.movXaf rA)
  | .byteInd rA rB => some (.movbInd rA rB)
  | .sbyteInd rA rB => some (.movsInd rA rB)
  | .wordInd rA rB => some (.movInd rA rB)
  | .imm16 rA v => some (.movImm16 rA v)
  | .regImm16 _ _ _ => none
  | .byteBased rA rB o => some (.movbBased rA rB o)
  | .sbyteBased rA rB o => some (.movsBased rA rB o)
  | .wordBased rA rB o => some (.movBased rA rB o)

/-- ADD in each form it has (41_arith.md R250). -/
def AluForm.add : AluForm → Option Instr
  | .imm4 rA v => some (.addImm4 rA v)
  | .reg rA rB => some (.addReg rA rB)
  | .xaf rA => some (.addXaf rA)
  | .byteInd rA rB => some (.addbInd rA rB)
  | .sbyteInd rA rB => some (.addsInd rA rB)
  | .wordInd rA rB => some (.addInd rA rB)
  | .imm16 rA v => some (.addImm16 rA v)
  | .regImm16 rA rB v => some (.addRegImm16 rA rB v)
  | .byteBased rA rB o => some (.addbBased rA rB o)
  | .sbyteBased rA rB o => some (.addsBased rA rB o)
  | .wordBased rA rB o => some (.addBased rA rB o)

/-- ADC in each form it has (41_arith.md R262). -/
def AluForm.adc : AluForm → Option Instr
  | .imm4 rA v => some (.adcImm4 rA v)
  | .reg rA rB => some (.adcReg rA rB)
  | .xaf rA => some (.adcXaf rA)
  | .byteInd rA rB => some (.adcbInd rA rB)
  | .sbyteInd rA rB => some (.adcsInd rA rB)
  | .wordInd rA rB => some (.adcInd rA rB)
  | .imm16 rA v => some (.adcImm16 rA v)
  | .regImm16 rA rB v => some (.adcRegImm16 rA rB v)
  | .byteBased rA rB o => some (.adcbBased rA rB o)
  | .sbyteBased rA rB o => some (.adcsBased rA rB o)
  | .wordBased rA rB o => some (.adcBased rA rB o)

/-- SUB in each form it has (41_arith.md R289). -/
def AluForm.sub : AluForm → Option Instr
  | .imm4 rA v => some (.subImm4 rA v)
  | .reg rA rB => some (.subReg rA rB)
  | .xaf rA => some (.subXaf rA)
  | .byteInd rA rB => some (.subbInd rA rB)
  | .sbyteInd rA rB => some (.subsInd rA rB)
  | .wordInd rA rB => some (.subInd rA rB)
  | .imm16 rA v => some (.subImm16 rA v)
  | .regImm16 rA rB v => some (.subRegImm16 rA rB v)
  | .byteBased rA rB o => some (.subbBased rA rB o)
  | .sbyteBased rA rB o => some (.subsBased rA rB o)
  | .wordBased rA rB o => some (.subBased rA rB o)

/-- SBB in each form it has (41_arith.md R301). -/
def AluForm.sbb : AluForm → Option Instr
  | .imm4 rA v => some (.sbbImm4 rA v)
  | .reg rA rB => some (.sbbReg rA rB)
  | .xaf rA => some (.sbbXaf rA)
  | .byteInd rA rB => some (.sbbbInd rA rB)
  | .sbyteInd rA rB => some (.sbbsInd rA rB)
  | .wordInd rA rB => some (.sbbInd rA rB)
  | .imm16 rA v => some (.sbbImm16 rA v)
  | .regImm16 rA rB v => some (.sbbRegImm16 rA rB v)
  | .byteBased rA rB o => some (.sbbbBased rA rB o)
  | .sbyteBased rA rB o => some (.sbbsBased rA rB o)
  | .wordBased rA rB o => some (.sbbBased rA rB o)

/-- AND in each form it has (42_logic.md R331). -/
def AluForm.and : AluForm → Option Instr
  | .imm4 rA v => some (.andImm4 rA v)
  | .reg rA rB => some (.andReg rA rB)
  | .xaf rA => some (.andXaf rA)
  | .byteInd rA rB => some (.andbInd rA rB)
  | .sbyteInd rA rB => some (.andsInd rA rB)
  | .wordInd rA rB => some (.andInd rA rB)
  | .imm16 rA v => some (.andImm16 rA v)
  | .regImm16 rA rB v => some (.andRegImm16 rA rB v)
  | .byteBased rA rB o => some (.andbBased rA rB o)
  | .sbyteBased rA rB o => some (.andsBased rA rB o)
  | .wordBased rA rB o => some (.andBased rA rB o)

/-- OR in each form it has (42_logic.md R344). -/
def AluForm.or : AluForm → Option Instr
  | .imm4 rA v => some (.orImm4 rA v)
  | .reg rA rB => some (.orReg rA rB)
  | .xaf rA => some (.orXaf rA)
  | .byteInd rA rB => some (.orbInd rA rB)
  | .sbyteInd rA rB => some (.orsInd rA rB)
  | .wordInd rA rB => some (.orInd rA rB)
  | .imm16 rA v => some (.orImm16 rA v)
  | .regImm16 rA rB v => some (.orRegImm16 rA rB v)
  | .byteBased rA rB o => some (.orbBased rA rB o)
  | .sbyteBased rA rB o => some (.orsBased rA rB o)
  | .wordBased rA rB o => some (.orBased rA rB o)

/-- XOR in each form it has (42_logic.md R356). -/
def AluForm.xor : AluForm → Option Instr
  | .imm4 rA v => some (.xorImm4 rA v)
  | .reg rA rB => some (.xorReg rA rB)
  | .xaf rA => some (.xorXaf rA)
  | .byteInd rA rB => some (.xorbInd rA rB)
  | .sbyteInd rA rB => some (.xorsInd rA rB)
  | .wordInd rA rB => some (.xorInd rA rB)
  | .imm16 rA v => some (.xorImm16 rA v)
  | .regImm16 rA rB v => some (.xorRegImm16 rA rB v)
  | .byteBased rA rB o => some (.xorbBased rA rB o)
  | .sbyteBased rA rB o => some (.xorsBased rA rB o)
  | .wordBased rA rB o => some (.xorBased rA rB o)

/-- CMP in each form it has (41_arith.md R274). -/
def AluForm.cmp : AluForm → Option Instr
  | .imm4 rA v => some (.cmpImm4 rA v)
  | .reg rA rB => some (.cmpReg rA rB)
  | .xaf rA => some (.cmpXaf rA)
  | .byteInd rA rB => some (.cmpbInd rA rB)
  | .sbyteInd rA rB => some (.cmpsInd rA rB)
  | .wordInd rA rB => some (.cmpInd rA rB)
  | .imm16 rA v => some (.cmpImm16 rA v)
  | .regImm16 rA rB v => some (.cmpRegImm16 rA rB v)
  | .byteBased rA rB o => some (.cmpbBased rA rB o)
  | .sbyteBased rA rB o => some (.cmpsBased rA rB o)
  | .wordBased rA rB o => some (.cmpBased rA rB o)

/-- SHL in each form it has (43_shift_rotate.md R424). -/
def AluForm.shl : AluForm → Option Instr
  | .imm4 rA v => some (.shlImm4 rA v)
  | .reg rA rB => some (.shlReg rA rB)
  | .xaf rA => some (.shlXaf rA)
  | .byteInd rA rB => some (.shlbInd rA rB)
  | .sbyteInd _ _ => none
  | .wordInd rA rB => some (.shlInd rA rB)
  | .imm16 rA v => some (.shlImm16 rA v)
  | .regImm16 rA rB v => some (.shlRegImm16 rA rB v)
  | .byteBased rA rB o => some (.shlbBased rA rB o)
  | .sbyteBased _ _ _ => none
  | .wordBased rA rB o => some (.shlBased rA rB o)

/-- SHR in each form it has (43_shift_rotate.md R434). -/
def AluForm.shr : AluForm → Option Instr
  | .imm4 rA v => some (.shrImm4 rA v)
  | .reg rA rB => some (.shrReg rA rB)
  | .xaf rA => some (.shrXaf rA)
  | .byteInd rA rB => some (.shrbInd rA rB)
  | .sbyteInd _ _ => none
  | .wordInd rA rB => some (.shrInd rA rB)
  | .imm16 rA v => some (.shrImm16 rA v)
  | .regImm16 rA rB v => some (.shrRegImm16 rA rB v)
  | .byteBased rA rB o => some (.shrbBased rA rB o)
  | .sbyteBased _ _ _ => none
  | .wordBased rA rB o => some (.shrBased rA rB o)

/-- ASR in each form it has (43_shift_rotate.md R384). -/
def AluForm.asr : AluForm → Option Instr
  | .imm4 rA v => some (.asrImm4 rA v)
  | .reg rA rB => some (.asrReg rA rB)
  | .xaf rA => some (.asrXaf rA)
  | .byteInd rA rB => some (.asrbInd rA rB)
  | .sbyteInd _ _ => none
  | .wordInd rA rB => some (.asrInd rA rB)
  | .imm16 rA v => some (.asrImm16 rA v)
  | .regImm16 rA rB v => some (.asrRegImm16 rA rB v)
  | .byteBased rA rB o => some (.asrbBased rA rB o)
  | .sbyteBased _ _ _ => none
  | .wordBased rA rB o => some (.asrBased rA rB o)

/-- ROR in each form it has (43_shift_rotate.md R404). -/
def AluForm.ror : AluForm → Option Instr
  | .imm4 rA v => some (.rorImm4 rA v)
  | .reg rA rB => some (.rorReg rA rB)
  | .xaf rA => some (.rorXaf rA)
  | .byteInd rA rB => some (.rorbInd rA rB)
  | .sbyteInd _ _ => none
  | .wordInd rA rB => some (.rorInd rA rB)
  | .imm16 rA v => some (.rorImm16 rA v)
  | .regImm16 rA rB v => some (.rorRegImm16 rA rB v)
  | .byteBased rA rB o => some (.rorbBased rA rB o)
  | .sbyteBased _ _ _ => none
  | .wordBased rA rB o => some (.rorBased rA rB o)

/-- RLC in each form it has (43_shift_rotate.md R394). -/
def AluForm.rlc : AluForm → Option Instr
  | .imm4 rA v => some (.rlcImm4 rA v)
  | .reg rA rB => some (.rlcReg rA rB)
  | .xaf rA => some (.rlcXaf rA)
  | .byteInd rA rB => some (.rlcbInd rA rB)
  | .sbyteInd _ _ => none
  | .wordInd rA rB => some (.rlcInd rA rB)
  | .imm16 rA v => some (.rlcImm16 rA v)
  | .regImm16 rA rB v => some (.rlcRegImm16 rA rB v)
  | .byteBased rA rB o => some (.rlcbBased rA rB o)
  | .sbyteBased _ _ _ => none
  | .wordBased rA rB o => some (.rlcBased rA rB o)

/-- RRC in each form it has (43_shift_rotate.md R414). -/
def AluForm.rrc : AluForm → Option Instr
  | .imm4 rA v => some (.rrcImm4 rA v)
  | .reg rA rB => some (.rrcReg rA rB)
  | .xaf rA => some (.rrcXaf rA)
  | .byteInd rA rB => some (.rrcbInd rA rB)
  | .sbyteInd _ _ => none
  | .wordInd rA rB => some (.rrcInd rA rB)
  | .imm16 rA v => some (.rrcImm16 rA v)
  | .regImm16 rA rB v => some (.rrcRegImm16 rA rB v)
  | .byteBased rA rB o => some (.rrcbBased rA rB o)
  | .sbyteBased _ _ _ => none
  | .wordBased rA rB o => some (.rrcBased rA rB o)

/-- The instruction of an operation in a form, none where the source has no such row (30_encoding.md R106, R122). -/
def AluForm.instr (m : AluForm) : AluOp → Option Instr
  | .mov => m.mov
  | .add => m.add
  | .adc => m.adc
  | .sub => m.sub
  | .sbb => m.sbb
  | .and => m.and
  | .or => m.or
  | .xor => m.xor
  | .cmp => m.cmp
  | .shl => m.shl
  | .shr => m.shr
  | .asr => m.asr
  | .ror => m.ror
  | .rlc => m.rlc
  | .rrc => m.rrc

/-- The operations that shift or rotate. -/
def AluOp.shifts : AluOp → Bool
  | .shl | .shr | .asr | .ror | .rlc | .rrc => true
  | _ => false

/-- The instructions after which the source calls OF not defined: AND, the shifts and rotates, the multiplications
(93_implementation_defined.md U1). -/
def leavesOFOpen (i : Instr) : Prop :=
  (∃ (m : AluForm) (op : AluOp), (op = .and ∨ op.shifts = true) ∧ m.instr op = some i) ∨
  ∃ rA rB, i = .mulu rA rB ∨ i = .muls rA rB

/-- The instructions after which the source calls AF not defined: NEG, the multiplications
(93_implementation_defined.md U1). -/
def leavesAFOpen (i : Instr) : Prop :=
  (∃ rA, i = .neg rA) ∨ ∃ rA rB, i = .mulu rA rB ∨ i = .muls rA rB

/-- Whether an exact signed result fits 16-bit two's complement (10_state.md R33). -/
def fitsSigned (x : Int) : Bool := decide (-32768 ≤ x ∧ x ≤ 32767)

/-- A carry or borrow as a number. -/
def carryNat (c : Bool) : Nat := if c then 1 else 0

/-- The unassigned opcode halfwords as 30_encoding.md R121 lists them, by the four nibbles. -/
def unassignedNibbles (n0 n1 n2 n3 : Nat) : Bool :=
  match n0 with
  | 0 =>
    match n1 with
    | 1 | 2 => decide (2 ≤ n3)
    | 3 | 4 | 5 => decide (4 ≤ n3)
    | 6 | 7 | 11 | 12 | 13 | 14 | 15 => true
    | _ => false
  | 1 | 2 | 3 | 4 | 6 | 8 | 12 | 14 => n1 == 15
  | 5 | 13 => decide (9 ≤ n1)
  | 11 => n1 == 0 || n1 == 15
  | 7 | 15 => !(n1 == 0 || n1 == 1 || n1 == 8)
  | 9 => n2 != 0
  | 10 => !(n1 == 0 || n1 == 1 || n1 == 8) || (n1 == 8 && n2 != 0)
  | _ => false

end Sys2Proof.Machine
end

