-- ==== Sys2Proof/WellFormed.lean ====
section
/-! DEFINITION. WellFormed.lean: the instructions that a program may contain. Registers, nibbles and halfwords have their
widths by their types; what remains is the internal instruction and the hidden registers that do not exist.
-/
namespace Sys2Proof

/-- IRC is not available to the programmer (30_encoding.md R123). -/
def Instr.notInternal : Instr → Bool
  | .irc _ => false
  | _ => true

/-- MHR names a hidden register that exists: HR0, or one below `HR_COUNT` (40_move_store.md R200; 10_state.md R35). -/
def Instr.hiddenRegisterExists (p : Config.Params) : Instr → Bool
  | .mhr _ hrB => hrB == 0 || decide (hrB.toNat < p.hrCount)
  | _ => true

/-- An instruction that a program may contain and that has an effect, under the parameters `p`. -/
def Instr.wellFormed (p : Config.Params) (i : Instr) : Bool := i.notInternal && i.hiddenRegisterExists p

end Sys2Proof
end

