-- ==== Sys2Proof/Certificates/Slice0/Obligations.lean ====
section
/-! DEFINITION. Certificates/Slice0/Obligations.lean: the statements for the provers. An instruction statement concludes that
exec answers a next state, says its result, and its frame (Safety.lean): what it leaves unchanged. They hold on every
platform (00_scope.md R6); where a parameter matters they name it. The byte order of every 16-bit access but ST is the spec's
decision D2, an access at an odd address D3 (notes/assumptions/2.md, 3.md).
-/
section
open Sys2Proof Sys2Proof.Machine

/-! ### Registers and the data path -/

/-- 10_state.md R20, R21: R0 reads zero and discards writes; a write to another register is read back; every other
register is unchanged. -/
def Obligations.ZeroRegisterAndRegisterFile : Prop :=
  ∀ (s : State) (r : RegNum) (v : Word),
    s.reg 0 = 0 ∧ s.setReg 0 v = s ∧ (r ≠ 0 → (s.setReg r v).reg r = v) ∧
    (∀ q, q ≠ r → (s.setReg r v).reg q = s.reg q) ∧ ∃ g, s.setReg r v = { s with regs := g }

/-- 41_arith.md R240: the 17-bit sum, its carry and its signed overflow, which is also the sign formula. -/
def Obligations.Add16IsTheExactSum : Prop :=
  ∀ (a b : Word) (c : Bool),
    (add16 a b c).r.toNat = (a.toNat + b.toNat + carryNat c) % 65536 ∧
    (add16 a b c).c = decide (65536 ≤ a.toNat + b.toNat + carryNat c) ∧
    (add16 a b c).v = !fitsSigned (a.toInt + b.toInt + carryNat c) ∧
    (add16 a b c).v = decide (a.msb = b.msb ∧ (add16 a b c).r.msb ≠ a.msb)

/-- 41_arith.md R241: the 17-bit difference, its borrow and its signed overflow, which is also the sign formula. -/
def Obligations.Sub16IsTheExactDifference : Prop :=
  ∀ (a b : Word) (c : Bool),
    ((add16 (sub16 a b c).r b c).r = a) ∧
    (sub16 a b c).r = a - b - BitVec.ofNat 16 (carryNat c) ∧
    (sub16 a b c).c = decide (a.toNat < b.toNat + carryNat c) ∧
    (sub16 a b c).v = !fitsSigned (a.toInt - b.toInt - carryNat c) ∧
    (sub16 a b c).v = decide (a.msb ≠ b.msb ∧ (sub16 a b c).r.msb ≠ a.msb)

/-- 43_shift_rotate.md R381, R382: for every value, CF and count, the closed form of each of the six operations is the
one-bit step repeated. -/
def Obligations.ShiftClosedFormsAreRepeatedSteps : Prop :=
  ∀ (a : Word) (c : Bool) (n : Nat),
    shl16 a c n = shiftSteps .shl n (a, c) ∧ shr16 a c n = shiftSteps .shr n (a, c) ∧
    asr16 a c n = shiftSteps .asr n (a, c) ∧ ror16 a c n = shiftSteps .ror n (a, c) ∧
    rlc16 a c n = shiftSteps .rlc n (a, c) ∧ rrc16 a c n = shiftSteps .rrc n (a, c)

/-! ### Move and arithmetic -/

/-- 40_move_store.md R201 to R211: MOV in its ten forms copies operand B to rA and writes no flag. -/
def Obligations.MovCopiesOperandInEveryForm : Prop :=
  ∀ (m : AluForm) (i : Instr) (s : State) (b : Word),
    m.instr .mov = some i → m.second s = some b →
    ∃ t, exec i s = .next t ∧ t.reg m.dest = (if m.dest = 0 then 0 else b) ∧ t.fr = s.fr ∧
      t.pc = s.pc + m.length ∧ t.hr = s.hr ∧ Frame [m.dest] [] s t

/-- 41_arith.md R242, R250 to R261: ADD in its eleven forms. -/
def Obligations.AddInEveryForm : Prop :=
  ∀ (m : AluForm) (i : Instr) (s : State) (b : Word),
    m.instr .add = some i → m.second s = some b →
    let a := m.first s
    let r := a + b
    ∃ t, exec i s = .next t ∧ t.reg m.dest = (if m.dest = 0 then 0 else r) ∧
      t.fr = { CF := decide (65536 ≤ a.toNat + b.toNat), AF := b.msb, ZF := decide (r = 0), SF := r.msb,
               OF := !fitsSigned (a.toInt + b.toInt), IF := s.fr.IF } ∧
      t.pc = s.pc + m.length ∧ t.hr = s.hr ∧ Frame [m.dest] [] s t

/-- 41_arith.md R242, R262 to R273: ADC in its eleven forms adds the carry. -/
def Obligations.AdcInEveryForm : Prop :=
  ∀ (m : AluForm) (i : Instr) (s : State) (b : Word),
    m.instr .adc = some i → m.second s = some b →
    let a := m.first s
    let c := carryNat s.fr.CF
    let r := a + b + BitVec.ofNat 16 c
    ∃ t, exec i s = .next t ∧ t.reg m.dest = (if m.dest = 0 then 0 else r) ∧
      t.fr = { CF := decide (65536 ≤ a.toNat + b.toNat + c), AF := b.msb, ZF := decide (r = 0), SF := r.msb,
               OF := !fitsSigned (a.toInt + b.toInt + c), IF := s.fr.IF } ∧
      t.pc = s.pc + m.length ∧ t.hr = s.hr ∧ Frame [m.dest] [] s t

/-- 41_arith.md R242, R289 to R300: SUB in its eleven forms; CF is the borrow. -/
def Obligations.SubInEveryForm : Prop :=
  ∀ (m : AluForm) (i : Instr) (s : State) (b : Word),
    m.instr .sub = some i → m.second s = some b →
    let a := m.first s
    let r := a - b
    ∃ t, exec i s = .next t ∧ t.reg m.dest = (if m.dest = 0 then 0 else r) ∧
      t.fr = { CF := decide (a.toNat < b.toNat), AF := b.msb, ZF := decide (r = 0), SF := r.msb,
               OF := !fitsSigned (a.toInt - b.toInt), IF := s.fr.IF } ∧
      t.pc = s.pc + m.length ∧ t.hr = s.hr ∧ Frame [m.dest] [] s t

/-- 41_arith.md R242, R301 to R312: SBB in its eleven forms subtracts the borrow. -/
def Obligations.SbbInEveryForm : Prop :=
  ∀ (m : AluForm) (i : Instr) (s : State) (b : Word),
    m.instr .sbb = some i → m.second s = some b →
    let a := m.first s
    let c := carryNat s.fr.CF
    let r := a - b - BitVec.ofNat 16 c
    ∃ t, exec i s = .next t ∧ t.reg m.dest = (if m.dest = 0 then 0 else r) ∧
      t.fr = { CF := decide (a.toNat < b.toNat + c), AF := b.msb, ZF := decide (r = 0), SF := r.msb,
               OF := !fitsSigned (a.toInt - b.toInt - c), IF := s.fr.IF } ∧
      t.pc = s.pc + m.length ∧ t.hr = s.hr ∧ Frame [m.dest] [] s t

/-- 41_arith.md R242, R274 to R285: CMP in its eleven forms writes the flags of a subtraction and no register. -/
def Obligations.CmpWritesOnlyFlagsInEveryForm : Prop :=
  ∀ (m : AluForm) (i : Instr) (s : State) (b : Word),
    m.instr .cmp = some i → m.second s = some b →
    let a := m.first s
    ∃ t, exec i s = .next t ∧
      t.fr = { CF := decide (a.toNat < b.toNat), AF := b.msb, ZF := decide (a = b), SF := (a - b).msb,
               OF := !fitsSigned (a.toInt - b.toInt), IF := s.fr.IF } ∧
      t.pc = s.pc + m.length ∧ t.hr = s.hr ∧ Frame [] [] s t

/-- 41_arith.md R286, R287: INC and DEC leave CF as it was under `INCDEC_CF = preserve`, the default, and write the carry or
borrow under `arith` (the spec's decision D7, notes/assumptions/7.md); they clear AF. -/
def Obligations.IncDecCarryByItsParameter : Prop :=
  ∀ (rA : RegNum) (s : State),
    let keeps := s.params.incDecCf = .preserve
    (∃ t, exec (.inc rA) s = .next t ∧ t.reg rA = (if rA = 0 then 0 else s.reg rA + 1) ∧
      t.fr = { CF := if keeps then s.fr.CF else decide (s.reg rA = 0xFFFF), AF := false,
               ZF := decide (s.reg rA + 1 = 0), SF := (s.reg rA + 1).msb, OF := decide (s.reg rA = 0x7FFF),
               IF := s.fr.IF } ∧
      t.pc = s.pc + 2 ∧ t.hr = s.hr ∧ Frame [rA] [] s t) ∧
    (∃ t, exec (.dec rA) s = .next t ∧ t.reg rA = (if rA = 0 then 0 else s.reg rA - 1) ∧
      t.fr = { CF := if keeps then s.fr.CF else decide (s.reg rA = 0), AF := false,
               ZF := decide (s.reg rA - 1 = 0), SF := (s.reg rA - 1).msb, OF := decide (s.reg rA = 0x8000),
               IF := s.fr.IF } ∧
      t.pc = s.pc + 2 ∧ t.hr = s.hr ∧ Frame [rA] [] s t)

/-- 41_arith.md R288: NEG; CF is 0 exactly when the operand is zero, AF is undefined. -/
def Obligations.NegIsTwosComplement : Prop :=
  ∀ (rA : RegNum) (s : State) (imm : Word),
    decodeWords (ofNibbles 0 3 rA 1) imm = some (.neg rA) ∧
    ∃ t u, exec (.neg rA) s = .next t ∧ t.reg rA = (if rA = 0 then 0 else -(s.reg rA)) ∧
      t.fr = { CF := decide (s.reg rA ≠ 0), AF := u, ZF := decide (s.reg rA = 0), SF := (-(s.reg rA)).msb,
               OF := decide (s.reg rA = 0x8000), IF := s.fr.IF } ∧
      t.pc = s.pc + 2 ∧ t.hr = s.hr ∧ Frame [rA] [] s t

/-- Ordinary data never stops an ALU instruction, POP, POPF, RET or RETI except where memory gives no value: each then stops at
the address of its operand, or of the word at R15, for the reason that holds there (`OperandStop`, `WordStop`). A fetch stops
so at the first of its two or four bytes that gives no value. Where every address is RAM that stop is the fault
unwrittenMemory at that byte, the first of a word that has no value (the spec's decision D25, notes/assumptions/23.md). -/
def Obligations.ReadsWithoutAValueStop : Prop :=
  ∀ (s : State),
    (∀ (m : AluForm) (op : AluOp) (i : Instr), m.instr op = some i → m.second s = none → m.OperandStop s (exec i s)) ∧
    (s.wordAt (s.reg 15) = none →
      (∀ i ∈ [Instr.ret, .reti, .popf], s.WordStop (s.reg 15) (exec i s)) ∧
      ∀ rA, s.WordStop (s.reg 15) (exec (.pop rA) s)) ∧
    (s.accepted = none → s.misaligned s.pc = false →
      let stopsAt := fun a : Word => a.toNat ∉ s.written → s.byteRead a = none → s.ByteStop a (step s)
      stopsAt s.pc ∧
      (∀ b0, s.imageAt s.pc [b0] → stopsAt (s.pc + 1)) ∧
      (∀ (b0 b1 : Byte) (i : Instr), b0.msb = true → decodeWords (b0 ++ b1) 0 = some i → i.notInternal = true →
        (s.imageAt s.pc [b0, b1] → stopsAt (s.pc + 2)) ∧
        (∀ b2, s.imageAt s.pc [b0, b1, b2] → stopsAt (s.pc + 3)))) ∧
    (s.plainMemory → ∀ (a : Word) (x : Result State),
      (s.ByteStop a x → s.byteAt a = none ∧ x = .fault (.unwrittenMemory a)) ∧
      (s.WordStop a x → (s.byteAt a = none ∧ x = .fault (.unwrittenMemory a)) ∨
        (s.byteAt a ≠ none ∧ s.byteAt (a + 1) = none ∧ x = .fault (.unwrittenMemory (a + 1)))))

/-! ### Logic, shifts, multiplication -/

/-- 42_logic.md R330 to R342: AND in its eleven forms; CF is cleared, OF is undefined. -/
def Obligations.AndInEveryForm : Prop :=
  ∀ (m : AluForm) (i : Instr) (s : State) (b : Word),
    m.instr .and = some i → m.second s = some b →
    let r := m.first s &&& b
    ∃ t u, exec i s = .next t ∧ t.reg m.dest = (if m.dest = 0 then 0 else r) ∧
      t.fr = { CF := false, AF := b.msb, ZF := decide (r = 0), SF := r.msb, OF := u, IF := s.fr.IF } ∧
      t.pc = s.pc + m.length ∧ t.hr = s.hr ∧ Frame [m.dest] [] s t

/-- 42_logic.md R330, R344 to R367: OR and XOR in their eleven forms; CF and OF are cleared. -/
def Obligations.OrXorInEveryForm : Prop :=
  ∀ (m : AluForm) (i j : Instr) (s : State) (b : Word),
    m.instr .or = some i → m.instr .xor = some j → m.second s = some b →
    let r := m.first s ||| b
    let x := m.first s ^^^ b
    (∃ t, exec i s = .next t ∧ t.reg m.dest = (if m.dest = 0 then 0 else r) ∧
      t.fr = { CF := false, AF := b.msb, ZF := decide (r = 0), SF := r.msb, OF := false, IF := s.fr.IF } ∧
      t.pc = s.pc + m.length ∧ t.hr = s.hr ∧ Frame [m.dest] [] s t) ∧
    (∃ t, exec j s = .next t ∧ t.reg m.dest = (if m.dest = 0 then 0 else x) ∧
      t.fr = { CF := false, AF := b.msb, ZF := decide (x = 0), SF := x.msb, OF := false, IF := s.fr.IF } ∧
      t.pc = s.pc + m.length ∧ t.hr = s.hr ∧ Frame [m.dest] [] s t)

/-- 42_logic.md R343: NOT complements rA and writes no flag. -/
def Obligations.NotComplementsAndKeepsFlags : Prop :=
  ∀ (rA : RegNum) (s : State) (imm : Word),
    decodeWords (ofNibbles 0 3 rA 0) imm = some (.not rA) ∧
    ∃ t, exec (.not rA) s = .next t ∧ t.reg rA = (if rA = 0 then 0 else 0xFFFF - s.reg rA) ∧ t.fr = s.fr ∧
      t.pc = s.pc + 2 ∧ t.hr = s.hr ∧ Frame [rA] [] s t

/-- 43_shift_rotate.md R380, R381, R383: SHL, SHR, ASR, ROR, RLC, RRC in their nine forms are the one-bit step repeated on the
value and CF as many times as operand B says, all its 16 bits or those of a mask (`SHIFT_COUNT`, notes/assumptions/8.md); OF
is undefined, AF is the top bit of operand B. -/
def Obligations.ShiftsRepeatTheStepInEveryForm : Prop :=
  ∀ (op : AluOp) (m : AluForm) (i : Instr) (s : State) (b : Word),
    op.shifts = true → m.instr op = some i → m.second s = some b →
    let count := match s.params.shiftCount with
      | .full16 => b.toNat
      | .mask k => (b &&& k).toNat
    let x := shiftSteps op count (m.first s, s.fr.CF)
    ∃ t u, exec i s = .next t ∧ t.reg m.dest = (if m.dest = 0 then 0 else x.1) ∧
      t.fr = { CF := x.2, AF := b.msb, ZF := decide (x.1 = 0), SF := x.1.msb, OF := u, IF := s.fr.IF } ∧
      t.pc = s.pc + m.length ∧ t.hr = s.hr ∧ Frame [m.dest] [] s t

/-- 44_multiply.md R461: MULU; the low half to rA, the high half to HR0, OF and AF undefined; the other hidden
registers stay. -/
def Obligations.MuluGivesTheUnsignedProduct : Prop :=
  ∀ (rA rB : RegNum) (s : State) (imm : Word),
    let p := (s.reg rA).toNat * (s.reg rB).toNat
    let lo : Word := BitVec.ofNat 16 (p % 65536)
    decodeWords (ofNibbles 0 8 rA rB) imm = some (.mulu rA rB) ∧
    ∃ t u v, exec (.mulu rA rB) s = .next t ∧ t.reg rA = (if rA = 0 then 0 else lo) ∧
      t.hr0 = BitVec.ofNat 16 (p / 65536) ∧ t.hr0.toNat * 65536 + lo.toNat = p ∧
      t.fr = { CF := decide (65536 ≤ p), AF := u, ZF := decide (lo = 0), SF := lo.msb, OF := v, IF := s.fr.IF } ∧
      t.pc = s.pc + 2 ∧ (∀ k, k ≠ 0 → t.hidden k = s.hidden k) ∧ Frame [rA] [] s t

/-- 44_multiply.md R460: MULS; the low half to rA, the high half to HR0, OF and AF undefined; the other hidden
registers stay. -/
def Obligations.MulsGivesTheSignedProduct : Prop :=
  ∀ (rA rB : RegNum) (s : State) (imm : Word),
    let p := (s.reg rA).toInt * (s.reg rB).toInt
    let lo := BitVec.ofInt 16 p
    decodeWords (ofNibbles 0 9 rA rB) imm = some (.muls rA rB) ∧
    ∃ t u v, exec (.muls rA rB) s = .next t ∧ t.reg rA = (if rA = 0 then 0 else lo) ∧
      (t.hr0 ++ lo : BitVec 32).toInt = p ∧
      t.fr = { CF := decide (t.hr0 ≠ 0 ∧ t.hr0 ≠ 0xFFFF), AF := u, ZF := decide (lo = 0), SF := lo.msb, OF := v,
               IF := s.fr.IF } ∧
      t.pc = s.pc + 2 ∧ (∀ k, k ≠ 0 → t.hidden k = s.hidden k) ∧ Frame [rA] [] s t

/-- 40_move_store.md R200, 10_state.md R35: MHR of a hidden register that exists, HR0 or one below `HR_COUNT`, copies it to rA and
changes no hidden register and no flag; MHR of any other is refused (the spec's decision D15, notes/assumptions/15.md). -/
def Obligations.MhrReadsTheHiddenRegistersThatExist : Prop :=
  ∀ (rA : RegNum) (k : Nibble) (s : State),
    s.hidden 0 = s.hr0 ∧
    (k = 0 ∨ k.toNat < s.params.hrCount →
      ∃ t, exec (.mhr rA k) s = .next t ∧ t.reg rA = (if rA = 0 then 0 else s.hidden k) ∧ t.fr = s.fr ∧
        t.pc = s.pc + 2 ∧ t.hr = s.hr ∧ Frame [rA] [] s t) ∧
    (k ≠ 0 → s.params.hrCount ≤ k.toNat → exec (.mhr rA k) s = .refused (.undefinedHiddenRegister k))

/-! ### Stores, caches -/

/-- 40_move_store.md R212, R213, R215: the byte stores STB and STS write the low byte of rA at the address, in RAM, and nothing
else. That the byte then counts as written is the model's record (20_memory.md R76; notes/assumptions/17.md, 33.md). -/
def Obligations.ByteStoresWriteOneByte : Prop :=
  ∀ (rA rB : RegNum) (offs16 imm : Word) (s : State),
    decodeWords (ofNibbles 7 0 rA rB) imm = some (.stbInd rA rB) ∧
    decodeWords (ofNibbles 15 0 rA rB) offs16 = some (.stbBased rA rB offs16) ∧
    (s.kindAt (s.reg rB) = some .ram → ∀ i ∈ [Instr.stbInd rA rB, .stsInd rA rB], ∃ t, exec i s = .next t ∧
      t.byteAt (s.reg rB) = some ((s.reg rA).setWidth 8) ∧ t.fr = s.fr ∧ t.pc = s.pc + 2 ∧ t.hr = s.hr ∧
      Frame [] [s.reg rB] s t) ∧
    (s.kindAt (s.based rB offs16) = some .ram → ∀ i ∈ [Instr.stbBased rA rB offs16, .stsBased rA rB offs16],
      ∃ t, exec i s = .next t ∧
      t.byteAt (s.based rB offs16) = some ((s.reg rA).setWidth 8) ∧ t.fr = s.fr ∧ t.pc = s.pc + 4 ∧ t.hr = s.hr ∧
      s.based rB offs16 = s.reg rB + offs16 ∧ Frame [] [s.based rB offs16] s t)

/-- 40_move_store.md R212, R214, R216: ST writes the high byte of rA at the address and the low byte at the next one, in RAM, and
nothing else, at odd addresses too unless `ALIGN_POLICY = refuse` (the spec's decision D3, notes/assumptions/3.md). That the
bytes then count as written is the model's record (notes/assumptions/17.md, 33.md). -/
def Obligations.WordStoresAreBigEndian : Prop :=
  ∀ (rA rB : RegNum) (offs16 imm : Word) (s : State),
    decodeWords (ofNibbles 7 1 rA rB) imm = some (.stInd rA rB) ∧
    decodeWords (ofNibbles 15 1 rA rB) offs16 = some (.stBased rA rB offs16) ∧
    (s.takesWord (s.reg rB) → ∃ t, exec (.stInd rA rB) s = .next t ∧
      t.byteAt (s.reg rB) = some ((s.reg rA >>> 8).setWidth 8) ∧
      t.byteAt (s.reg rB + 1) = some ((s.reg rA).setWidth 8) ∧ t.fr = s.fr ∧ t.pc = s.pc + 2 ∧ t.hr = s.hr ∧
      Frame [] [s.reg rB, s.reg rB + 1] s t) ∧
    (s.takesWord (s.based rB offs16) → ∃ t, exec (.stBased rA rB offs16) s = .next t ∧
      t.byteAt (s.based rB offs16) = some ((s.reg rA >>> 8).setWidth 8) ∧
      t.byteAt (s.based rB offs16 + 1) = some ((s.reg rA).setWidth 8) ∧ t.fr = s.fr ∧ t.pc = s.pc + 4 ∧ t.hr = s.hr ∧
      s.based rB offs16 = s.reg rB + offs16 ∧ Frame [] [s.based rB offs16, s.based rB offs16 + 1] s t)

/-- 00_scope.md R6 (`MEM_MAP`, `ALIGN_POLICY`), 60_exceptions.md R610: a store, push, call or IRC whose address is not RAM. In ROM
the byte is lost and the instruction goes on (92_eei_decisions.md D31, notes/assumptions/30.md) to the pc, R15 and flags that
it has in RAM; at a device or outside the map, and for a misaligned word under `refuse`, it is refused. Each byte of a word goes
where its own address says, the byte at the lower address first (notes/assumptions/34.md). -/
def Obligations.StoresOutsideRamAreLostOrRefused : Prop :=
  ∀ (rA rB : RegNum) (offs16 v : Word) (s : State),
    let sp := s.reg 15 - 2
    let refusedAt := fun (i : Instr) (a : Word) =>
      (s.kindAt a = some .device → exec i s = .refused (.deviceAccess a)) ∧
      (s.kindAt a = none → exec i s = .refused (.outsideMemoryMap a))
    let storesByte := fun (i : Instr) (a len : Word) =>
      refusedAt i a ∧ (s.kindAt a = some .rom → exec i s = .next { s with pc := s.pc + len })
    let storesWord := fun (i : Instr) (a w r15 pc : Word) (fr : Flags) =>
      (s.misaligned a = true → exec i s = .refused (.misalignedAccess a)) ∧
      (s.misaligned a = false → refusedAt i a ∧
        (s.readable a = true → refusedAt i (a + 1) ∧
          (s.readable (a + 1) = true → ∃ t, exec i s = .next t ∧ t.reg 15 = r15 ∧ t.pc = pc ∧ t.fr = fr ∧ t.hr = s.hr ∧
            (s.kindAt a = some .ram → t.byteAt a = some ((w >>> 8).setWidth 8)) ∧
            (s.kindAt (a + 1) = some .ram → t.byteAt (a + 1) = some (w.setWidth 8)) ∧
            Frame [15] ([a, a + 1].filter fun x => s.kindAt x == some .ram) s t)))
    storesByte (.stbInd rA rB) (s.reg rB) 2 ∧ storesByte (.stsInd rA rB) (s.reg rB) 2 ∧
    storesByte (.stbBased rA rB offs16) (s.based rB offs16) 4 ∧
    storesByte (.stsBased rA rB offs16) (s.based rB offs16) 4 ∧
    storesWord (.stInd rA rB) (s.reg rB) (s.reg rA) (s.reg 15) (s.pc + 2) s.fr ∧
    storesWord (.stBased rA rB offs16) (s.based rB offs16) (s.reg rA) (s.reg 15) (s.pc + 4) s.fr ∧
    storesWord (.push rA) sp (if rA = 15 then sp else s.reg rA) sp (s.pc + 2) s.fr ∧
    (∃ w : Word, w.toNat = carryNat s.fr.IF * 256 + carryNat s.fr.OF * 16 + carryNat s.fr.SF * 8 +
        carryNat s.fr.ZF * 4 + carryNat s.fr.AF * 2 + carryNat s.fr.CF + (s.params.frReservedRead &&& 0xFEE0).toNat ∧
      storesWord .pushf sp w sp (s.pc + 2) s.fr) ∧
    storesWord (.call offs16) sp (s.pc + 4) sp (s.pc + 2 + offs16) s.fr ∧
    storesWord (.calla offs16) sp (s.pc + 4) sp offs16 s.fr ∧
    storesWord (.calli rA) sp (s.pc + 2) sp (if rA = 15 then sp else s.reg rA) s.fr ∧
    storesWord (.irc v) sp s.pc sp v { s.fr with IF := false }

/-- 20_memory.md R64, R73, R78: a word stored is read back by a word load; a byte load at its address reads the high byte and
one at the next address the low byte. -/
def Obligations.StoredWordReadsBack : Prop :=
  ∀ (rA rB rC : RegNum) (s : State), rC ≠ 0 → s.takesWord (s.reg rB) →
    ∃ t, exec (.stInd rA rB) s = .next t ∧
      (∃ u, exec (.movInd rC rB) t = .next u ∧ u.reg rC = s.reg rA) ∧
      (∃ u, exec (.movbInd rC rB) t = .next u ∧ u.reg rC = s.reg rA >>> 8) ∧
      (∃ u, exec (.movbBased rC rB 1) t = .next u ∧ u.reg rC = s.reg rA &&& 0x00FF)

/-- 47_system.md R531, R532: under `CACHE_TRANSPARENT`, the default, CCB changes no register, flag or byte of memory, and moves the
pc on; the cleared valid bit of the addressed block is recorded in both caches' lists (the model's record,
notes/assumptions/16.md). Without transparent caches the spec gives no model and CCB is refused
(93_implementation_defined.md U15). -/
def Obligations.CcbChangesNothingVisible : Prop :=
  ∀ (rB : RegNum) (offs16 : Word) (s : State),
    (s.params.cacheTransparent = true →
      (∃ l d, exec (.ccbInd rB) s = .next { s with pc := s.pc + 2, icacheCleared := l, dcacheCleared := d } ∧
        (∀ a, a ∈ l ↔ a = (s.reg rB).toNat ∨ a ∈ s.icacheCleared) ∧
        (∀ a, a ∈ d ↔ a = (s.reg rB).toNat ∨ a ∈ s.dcacheCleared)) ∧
      (∃ l d, exec (.ccbBased rB offs16) s = .next { s with pc := s.pc + 4, icacheCleared := l, dcacheCleared := d } ∧
        (∀ a, a ∈ l ↔ a = (s.reg rB + offs16).toNat ∨ a ∈ s.icacheCleared) ∧
        (∀ a, a ∈ d ↔ a = (s.reg rB + offs16).toNat ∨ a ∈ s.dcacheCleared))) ∧
    (s.params.cacheTransparent = false →
      exec (.ccbInd rB) s = .refused .cacheNotTransparent ∧
      exec (.ccbBased rB offs16) s = .refused .cacheNotTransparent)

/-! ### Control transfer -/

/-- 45_control.md R470, R489, R490, R491: JMP is relative to pc + 2, JMPA and JMPI are absolute; nothing but the pc changes. The nibble N2
printed 0 in the rows of JMP and JMPA is required. -/
def Obligations.UnconditionalJumps : Prop :=
  ∀ (rA : RegNum) (offs16 imm : Word) (x : Nibble) (s : State),
    decodeWords (ofNibbles 9 14 0 x) offs16 = some (.jmp offs16) ∧
    decodeWords (ofNibbles 9 15 0 x) offs16 = some (.jmpa offs16) ∧
    (∀ c y, y ≠ 0 → decodeWords (ofNibbles 9 c y x) offs16 = none) ∧
    decodeWords (ofNibbles 0 1 rA 0) imm = some (.jmpi rA) ∧
    exec (.jmp offs16) s = .next { s with pc := s.pc + 2 + offs16 } ∧
    exec (.jmpa offs16) s = .next { s with pc := offs16 } ∧
    exec (.jmpi rA) s = .next { s with pc := s.reg rA }

/-- 45_control.md R470, R475 to R482, R493: the conditional jumps on one flag, and the second names of four of them, with their
encodings (N2 is 0, N3 is ignored) and conditions; nothing but the pc changes. -/
def Obligations.JumpsOnOneFlag : Prop :=
  ∀ (o : Word) (x : Nibble) (s : State),
    (∀ c y, y ≠ 0 → decodeWords (ofNibbles 9 c y x) o = none) ∧
    (decodeWords (ofNibbles 9 0 0 x) o = some (.jz o) ∧ exec (.jz o) s = .next (s.branch s.fr.ZF o)) ∧
    (decodeWords (ofNibbles 9 1 0 x) o = some (.jnz o) ∧ exec (.jnz o) s = .next (s.branch (!s.fr.ZF) o)) ∧
    (decodeWords (ofNibbles 9 2 0 x) o = some (.jc o) ∧ exec (.jc o) s = .next (s.branch s.fr.CF o)) ∧
    (decodeWords (ofNibbles 9 3 0 x) o = some (.jnc o) ∧ exec (.jnc o) s = .next (s.branch (!s.fr.CF) o)) ∧
    (decodeWords (ofNibbles 9 4 0 x) o = some (.js o) ∧ exec (.js o) s = .next (s.branch s.fr.SF o)) ∧
    (decodeWords (ofNibbles 9 5 0 x) o = some (.jns o) ∧ exec (.jns o) s = .next (s.branch (!s.fr.SF) o)) ∧
    (decodeWords (ofNibbles 9 6 0 x) o = some (.jo o) ∧ exec (.jo o) s = .next (s.branch s.fr.OF o)) ∧
    (decodeWords (ofNibbles 9 7 0 x) o = some (.jno o) ∧ exec (.jno o) s = .next (s.branch (!s.fr.OF) o)) ∧
    (encode (.jeq o) = encode (.jz o) ∧ exec (.jeq o) s = .next (s.branch s.fr.ZF o)) ∧
    (encode (.jne o) = encode (.jnz o) ∧ exec (.jne o) s = .next (s.branch (!s.fr.ZF) o)) ∧
    (encode (.jbt o) = encode (.jc o) ∧ exec (.jbt o) s = .next (s.branch s.fr.CF o)) ∧
    (encode (.jae o) = encode (.jnc o) ∧ exec (.jae o) s = .next (s.branch (!s.fr.CF) o))

/-- 45_control.md R470, R483 to R488: the conditional jumps on several flags, with their encodings (N2 is 0, N3 is ignored) and
conditions; nothing but the pc changes. -/
def Obligations.JumpsOnSeveralFlags : Prop :=
  ∀ (o : Word) (x : Nibble) (s : State),
    (∀ c y, y ≠ 0 → decodeWords (ofNibbles 9 c y x) o = none) ∧
    (decodeWords (ofNibbles 9 8 0 x) o = some (.jge o) ∧
      exec (.jge o) s = .next (s.branch (decide (s.fr.SF = s.fr.OF)) o)) ∧
    (decodeWords (ofNibbles 9 9 0 x) o = some (.jlt o) ∧
      exec (.jlt o) s = .next (s.branch (decide (s.fr.SF ≠ s.fr.OF)) o)) ∧
    (decodeWords (ofNibbles 9 10 0 x) o = some (.jgt o) ∧
      exec (.jgt o) s = .next (s.branch (decide (s.fr.ZF = false ∧ s.fr.SF = s.fr.OF)) o)) ∧
    (decodeWords (ofNibbles 9 11 0 x) o = some (.jle o) ∧
      exec (.jle o) s = .next (s.branch (decide (s.fr.ZF = true ∨ s.fr.SF ≠ s.fr.OF)) o)) ∧
    (decodeWords (ofNibbles 9 12 0 x) o = some (.jat o) ∧
      exec (.jat o) s = .next (s.branch (decide (s.fr.CF = false ∧ s.fr.ZF = false)) o)) ∧
    (decodeWords (ofNibbles 9 13 0 x) o = some (.jbe o) ∧
      exec (.jbe o) s = .next (s.branch (decide (s.fr.CF = true ∨ s.fr.ZF = true)) o))

/-- 45_control.md R471, the column of what each jump means after a compare: CMP in any form, then the jump, goes where the
comparison of the two operands says. That CF is the borrow, on which the unsigned jumps rest, is the spec's decision D30
(notes/assumptions/29.md, DEDUCED). -/
def Obligations.CompareThenBranch : Prop :=
  ∀ (m : AluForm) (i : Instr) (s : State) (b : Word) (o : Word),
    m.instr .cmp = some i → m.second s = some b →
    let a := m.first s
    ∃ t, exec i s = .next t ∧
      exec (.jz o) t = .next (t.branch (decide (a = b)) o) ∧
      exec (.jnz o) t = .next (t.branch (decide (a ≠ b)) o) ∧
      exec (.jc o) t = .next (t.branch (decide (a.toNat < b.toNat)) o) ∧
      exec (.jnc o) t = .next (t.branch (decide (b.toNat ≤ a.toNat)) o) ∧
      exec (.js o) t = .next (t.branch (a - b).msb o) ∧
      exec (.jns o) t = .next (t.branch (!(a - b).msb) o) ∧
      exec (.jo o) t = .next (t.branch (!fitsSigned (a.toInt - b.toInt)) o) ∧
      exec (.jno o) t = .next (t.branch (fitsSigned (a.toInt - b.toInt)) o) ∧
      exec (.jge o) t = .next (t.branch (decide (b.toInt ≤ a.toInt)) o) ∧
      exec (.jlt o) t = .next (t.branch (decide (a.toInt < b.toInt)) o) ∧
      exec (.jgt o) t = .next (t.branch (decide (b.toInt < a.toInt)) o) ∧
      exec (.jle o) t = .next (t.branch (decide (a.toInt ≤ b.toInt)) o) ∧
      exec (.jat o) t = .next (t.branch (decide (b.toNat < a.toNat)) o) ∧
      exec (.jbe o) t = .next (t.branch (decide (a.toNat ≤ b.toNat)) o)

/-- 45_control.md R470, R472, R473: CALL and CALLA push the address of the next instruction, pc + 4, below R15 and go to their
target; N2 and N3 are ignored. -/
def Obligations.CallsPushTheReturnAddress : Prop :=
  ∀ (offs16 : Word) (x y : Nibble) (s : State),
    let sp := s.reg 15 - 2
    decodeWords (ofNibbles 10 0 x y) offs16 = some (.call offs16) ∧
    decodeWords (ofNibbles 10 1 x y) offs16 = some (.calla offs16) ∧
    (s.takesWord sp → ∃ t, exec (.call offs16) s = .next t ∧ t.reg 15 = sp ∧ t.wordAt sp = some (s.pc + 4) ∧
      t.pc = s.pc + 2 + offs16 ∧ t.fr = s.fr ∧ t.hr = s.hr ∧ Frame [15] [sp, sp + 1] s t) ∧
    (s.takesWord sp → ∃ t, exec (.calla offs16) s = .next t ∧ t.reg 15 = sp ∧ t.wordAt sp = some (s.pc + 4) ∧
      t.pc = offs16 ∧ t.fr = s.fr ∧ t.hr = s.hr ∧ Frame [15] [sp, sp + 1] s t)

/-- 45_control.md R474, R496: CALLI pushes pc + 2 and goes to the address in rA; CALLI R15 goes to the decremented R15 (the
spec's decision D24, notes/assumptions/26.md). -/
def Obligations.CalliPushesAndGoesToRegister : Prop :=
  ∀ (rA : RegNum) (s : State),
    let sp := s.reg 15 - 2
    s.takesWord sp → ∃ t, exec (.calli rA) s = .next t ∧ t.reg 15 = sp ∧ t.wordAt sp = some (s.pc + 2) ∧
      t.pc = (if rA = 15 then sp else s.reg rA) ∧ t.fr = s.fr ∧ t.hr = s.hr ∧ Frame [15] [sp, sp + 1] s t

/-- 45_control.md R492, 47_system.md R535: RET and RETI pop the pc; RETI also sets IF. -/
def Obligations.ReturnsPopThePc : Prop :=
  ∀ (s : State) (v imm : Word) (x : Nibble), s.wordAt (s.reg 15) = some v →
    decodeWords (ofNibbles 0 2 x 0) imm = some .ret ∧ decodeWords (ofNibbles 0 2 x 1) imm = some .reti ∧
    (∃ t, exec .ret s = .next t ∧ t.pc = v ∧ t.reg 15 = s.reg 15 + 2 ∧ t.fr = s.fr ∧ t.hr = s.hr ∧
      Frame [15] [] s t) ∧
    (∃ t, exec .reti s = .next t ∧ t.pc = v ∧ t.reg 15 = s.reg 15 + 2 ∧ t.fr = { s.fr with IF := true } ∧
      t.hr = s.hr ∧ Frame [15] [] s t)

/-- 45_control.md R494: RET at the target of CALL, CALLA or CALLI comes back to the next instruction with every register, flag
and HR0 as before the call. -/
def Obligations.CallThenReturnComesBack : Prop :=
  ∀ (rA : RegNum) (offs16 : Word) (s : State),
    let sp := s.reg 15 - 2
    s.takesWord sp → ∀ p ∈ [(Instr.call offs16, (4 : Word)), (.calla offs16, 4), (.calli rA, 2)],
      ∃ t u, exec p.1 s = .next t ∧ exec .ret t = .next u ∧ u.pc = s.pc + p.2 ∧ u.fr = s.fr ∧ u.hr = s.hr ∧
        Frame [] [sp, sp + 1] s u

/-! ### Stack and flags -/

/-- 46_stack_flags.md R510, R513: PUSH stores rA below R15; PUSH R15 stores the decremented R15 (the spec's decision D24,
notes/assumptions/26.md). -/
def Obligations.PushStoresBelowTheStack : Prop :=
  ∀ (rA : RegNum) (s : State),
    let sp := s.reg 15 - 2
    s.takesWord sp → ∃ t, exec (.push rA) s = .next t ∧ t.reg 15 = sp ∧
      t.wordAt sp = some (if rA = 15 then sp else s.reg rA) ∧
      t.fr = s.fr ∧ t.pc = s.pc + 2 ∧ t.hr = s.hr ∧ Frame [15] [sp, sp + 1] s t

/-- 46_stack_flags.md R510, R511: POP loads rA and moves R15 up; POP R0 only moves R15; POP R15 leaves the loaded word plus 2
(the spec's decision D24,
notes/assumptions/26.md). -/
def Obligations.PopLoadsFromTheStack : Prop :=
  ∀ (rA : RegNum) (s : State) (v : Word), s.wordAt (s.reg 15) = some v →
    ∃ t, exec (.pop rA) s = .next t ∧ t.reg 15 = (if rA = 15 then v + 2 else s.reg 15 + 2) ∧
      (rA ≠ 15 → t.reg rA = (if rA = 0 then 0 else v)) ∧
      t.fr = s.fr ∧ t.pc = s.pc + 2 ∧ t.hr = s.hr ∧ Frame [rA, 15] [] s t

/-- 10_state.md R27, R36, 46_stack_flags.md R514: PUSHF stores the six flags at their bits and
`FR_RESERVED_READ`, by default zeros, in the other ten (the spec's decision D11, notes/assumptions/11.md). -/
def Obligations.PushfStoresTheFlagWord : Prop :=
  ∀ (s : State),
    let sp := s.reg 15 - 2
    s.takesWord sp → ∃ t w, exec .pushf s = .next t ∧ t.reg 15 = sp ∧ t.wordAt sp = some w ∧
      w.toNat = carryNat s.fr.IF * 256 + carryNat s.fr.OF * 16 + carryNat s.fr.SF * 8 + carryNat s.fr.ZF * 4 +
        carryNat s.fr.AF * 2 + carryNat s.fr.CF + (s.params.frReservedRead &&& 0xFEE0).toNat ∧
      t.fr = s.fr ∧ t.pc = s.pc + 2 ∧ t.hr = s.hr ∧ Frame [15] [sp, sp + 1] s t

/-- 46_stack_flags.md R512: POPF takes the six flags from bits 0 to 4 and 8 of the popped word and ignores the others. -/
def Obligations.PopfTakesTheFlags : Prop :=
  ∀ (s : State) (v : Word), s.wordAt (s.reg 15) = some v →
    ∃ t, exec .popf s = .next t ∧ t.reg 15 = s.reg 15 + 2 ∧
      t.fr = { CF := v[0], AF := v[1], ZF := v[2], SF := v[3], OF := v[4], IF := v[8] } ∧
      t.pc = s.pc + 2 ∧ t.hr = s.hr ∧ Frame [15] [] s t

/-- 46_stack_flags.md R510, R512, R514: POP gives back what PUSH stored, and POPF gives back the flags that PUSHF stored, whatever
the flags have become in between; R15 ends where it was. -/
def Obligations.PopUndoesPush : Prop :=
  ∀ (rA rB : RegNum) (s : State) (f : Flags), rA ≠ 15 → rB ≠ 15 →
    let sp := s.reg 15 - 2
    s.takesWord sp →
    (∃ t u, exec (.push rA) s = .next t ∧ exec (.pop rB) t = .next u ∧ u.reg rB = (if rB = 0 then 0 else s.reg rA) ∧
      u.fr = s.fr ∧ u.hr = s.hr ∧ Frame [rB] [sp, sp + 1] s u) ∧
    (∃ t u, exec .pushf s = .next t ∧ exec .popf (t.withFr f) = .next u ∧ u.fr = s.fr ∧ u.hr = s.hr ∧
      Frame [] [sp, sp + 1] s u)

/-- 46_stack_flags.md R515 to R518, 47_system.md R534: CLC, STC, CLI, STI each write their one flag, NOP none; nothing else but
the pc changes. -/
def Obligations.SingleFlagInstructionsAndNop : Prop :=
  ∀ (s : State) (x y : Nibble) (imm : Word),
    decodeWords (ofNibbles 0 5 x 0) imm = some .clc ∧ decodeWords (ofNibbles 0 5 x 1) imm = some .stc ∧
    decodeWords (ofNibbles 0 5 x 2) imm = some .cli ∧ decodeWords (ofNibbles 0 5 x 3) imm = some .sti ∧
    decodeWords (ofNibbles 0 0 x y) imm = some .nop ∧
    exec .clc s = .next { s with fr := { s.fr with CF := false }, pc := s.pc + 2 } ∧
    exec .stc s = .next { s with fr := { s.fr with CF := true }, pc := s.pc + 2 } ∧
    exec .cli s = .next { s with fr := { s.fr with IF := false }, pc := s.pc + 2 } ∧
    exec .sti s = .next { s with fr := { s.fr with IF := true }, pc := s.pc + 2 } ∧
    exec .nop s = .next { s with pc := s.pc + 2 }

/-! ### The external interrupt -/

/-- 47_system.md R533: IRC pushes the pc, clears IF and goes to its absolute address; no other flag or register changes. -/
def Obligations.IrcEntersTheHandler : Prop :=
  ∀ (v : Word) (s : State),
    let sp := s.reg 15 - 2
    s.takesWord sp → ∃ t, exec (.irc v) s = .next t ∧ t.reg 15 = sp ∧ t.wordAt sp = some s.pc ∧ t.pc = v ∧
      t.fr = { s.fr with IF := false } ∧ t.hr = s.hr ∧ Frame [15] [sp, sp + 1] s t

/-- 60_exceptions.md R602, R603: with IF set and a request asserted at the boundary, the step takes the interrupt instead of
fetching: the address of the instruction not yet fetched is pushed, IF is cleared, control goes to the request's
handler address. -/
def Obligations.AssertedRequestIsTaken : Prop :=
  ∀ (v : Word) (rest : List (Option Word)) (s : State), s.fr.IF = true → s.irq = some v :: rest →
    let sp := s.reg 15 - 2
    s.takesWord sp → ∃ t, step s = .next t ∧ t.reg 15 = sp ∧ t.wordAt sp = some s.pc ∧ t.pc = v ∧
      t.fr = { s.fr with IF := false } ∧ t.hr = s.hr ∧ t.irq = rest ∧ Frame [15] [sp, sp + 1] s.pastBoundary t

/-- 60_exceptions.md R603, R605: an interrupt entry whose handler is the one instruction RETI leaves the machine as it was,
with IF set, but for the two bytes below R15: the interrupted instruction is the next one. What drives the request is the
model's list irq (notes/assumptions/18.md). -/
def Obligations.InterruptThenRetiResumes : Prop :=
  ∀ (v : Word) (rest : List (Option Word)) (s : State), s.fr.IF = true → s.irq = some v :: rest →
    let sp := s.reg 15 - 2
    s.takesWord sp → ∃ t u, step s = .next t ∧ exec .reti t = .next u ∧ u.pc = s.pc ∧ u.fr = s.fr ∧ u.hr = s.hr ∧
      Frame [] [sp, sp + 1] s.pastBoundary u

/-- 60_exceptions.md R602 (1): with IF = 0 no interrupt is taken, whatever the environment drives: the step does the same for
every drive, and the drive at the boundary is passed over. -/
def Obligations.MaskedRequestsHaveNoEffect : Prop :=
  ∀ (s t : State) (q : List (Option Word)), s.fr.IF = false → step s = .next t →
    step (s.withIrq q) = .next (t.withIrq q.tail)

/-- 10_state.md R34, R37: no instruction but STI, CLI, POPF, RETI and IRC changes IF. -/
def Obligations.OnlyFiveInstructionsChangeIF : Prop :=
  ∀ (i : Instr) (s t : State), exec i s = .next t → t.fr.IF ≠ s.fr.IF →
    i = .sti ∨ i = .cli ∨ i = .popf ∨ i = .reti ∨ ∃ v, i = .irc v

/-- 10_state.md R35, 20_memory.md R61: no instruction but MULU and MULS changes a hidden register, and they change HR0
alone; no instruction but the stores, the pushes, the calls and IRC changes a byte of memory, and that byte is in RAM
(00_scope.md R6). -/
def Obligations.OnlyTheseWriteHr0OrMemory : Prop :=
  ∀ (i : Instr) (s t : State), exec i s = .next t →
    (t.hr ≠ s.hr → ∃ rA rB, i = .mulu rA rB ∨ i = .muls rA rB) ∧ (∀ k, k ≠ 0 → t.hidden k = s.hidden k) ∧
    (∀ a, t.byteAt a ≠ s.byteAt a → s.kindAt a = some .ram ∧
      (i = .pushf ∨ (∃ r, i = .push r ∨ i = .calli r) ∨ (∃ o, i = .call o ∨ i = .calla o ∨ i = .irc o) ∨
      (∃ rA rB, i = .stInd rA rB ∨ i = .stbInd rA rB ∨ i = .stsInd rA rB) ∨
      (∃ rA rB o, i = .stBased rA rB o ∨ i = .stbBased rA rB o ∨ i = .stsBased rA rB o)))

/-! ### Words of more than 16 bits -/

/-- 41_arith.md R243: ADD of the low halves, then ADC of the high halves, adds two 32-bit numbers; CF is the 32-bit carry. A
destination R0 and a source that the first ADD overwrites are left to AddInEveryForm and AdcInEveryForm. -/
def Obligations.AddThenAdcAddsDoubleWords : Prop :=
  ∀ (lo hi slo shi : RegNum) (s : State), lo ≠ 0 → hi ≠ 0 → hi ≠ lo → shi ≠ lo →
    let x : BitVec 32 := s.reg hi ++ s.reg lo
    let y : BitVec 32 := s.reg shi ++ s.reg slo
    ∃ t u, exec (.addReg lo slo) s = .next t ∧ exec (.adcReg hi shi) t = .next u ∧
      (u.reg hi ++ u.reg lo : BitVec 32) = x + y ∧ u.fr.CF = decide (2 ^ 32 ≤ x.toNat + y.toNat) ∧
      Frame [lo, hi] [] s u

/-- 10_state.md R30, 41_arith.md R243: ADD of a signed 16-bit register to the low half, then ADC of XAF to the high half, adds its
sign extension to the 32-bit number, and AF is still the sign of the register. That operand B sets AF is the spec's decision
D6 (notes/assumptions/6.md). -/
def Obligations.AddThenAdcXafAddsSignedWord : Prop :=
  ∀ (lo hi r : RegNum) (s : State), lo ≠ 0 → hi ≠ 0 → hi ≠ lo →
    let x : BitVec 32 := s.reg hi ++ s.reg lo
    ∃ t u, exec (.addReg lo r) s = .next t ∧ exec (.adcXaf hi) t = .next u ∧
      (u.reg hi ++ u.reg lo : BitVec 32) = x + (s.reg r).signExtend 32 ∧ u.fr.AF = (s.reg r).msb ∧
      Frame [lo, hi] [] s u

/-! ### Encoding and fetch -/

/-- 30_encoding.md R100 to R119, R132: decoding the bytes of any instruction, whatever follows them, gives the instruction back (a
second name gives its first name), and leaves what follows. -/
def Obligations.DecodeOfEncodeIsTheInstruction : Prop :=
  ∀ (i : Instr) (rest : List Byte), decodeBytes (encodeBytes i ++ rest) = .ok i.primary rest

/-- 30_encoding.md R102, R105, R132: what the decoder answers is never a second name; it has used 4 bytes exactly when bit 15 of
the opcode halfword is set and else 2; and the words of the answer decode to it again. -/
def Obligations.DecodedInstructionsHaveTheirLength : Prop :=
  ∀ (b0 b1 : Byte) (bs rest : List Byte) (i : Instr), decodeBytes (b0 :: b1 :: bs) = .ok i rest →
    i.primary = i ∧ (b0 :: b1 :: bs).length = rest.length + (if b0.msb then 4 else 2) ∧
    (encodeBytes i).length = (if b0.msb then 4 else 2) ∧ decodeBytes (encodeBytes i) = .ok i []

/-- 30_encoding.md R121, R122: the opcode halfwords that are no instruction are exactly those of the table of unassigned ones. -/
def Obligations.UnassignedOpcodesAreThoseOfTheTable : Prop :=
  ∀ (w imm : Word), (decodeWords w imm = none) ↔
    unassignedNibbles (w.toNat / 4096) (w.toNat / 256 % 16) (w.toNat / 16 % 16) (w.toNat % 16) = true

/-- 30_encoding.md R101, R105: words written out from the tables decode to the instructions they stand for. -/
def Obligations.WordsOfTheTablesDecode : Prop :=
  decodeBytes [0x10, 0x15] = .ok (.movImm4 1 5) [] ∧
  decodeBytes [0x0A, 0x30] = .ok (.mhr 3 0) [] ∧
  decodeBytes [0xB1, 0x12, 0x00, 0x05] = .ok (.addRegImm16 1 2 0x0005) [] ∧
  decodeBytes [0x03, 0x11] = .ok (.neg 1) [] ∧
  decodeBytes [0x15, 0x1A] = .ok (.andImm4 1 10) [] ∧
  decodeBytes [0x1B, 0x11] = .ok (.asrImm4 1 1) [] ∧
  decodeBytes [0x09, 0x12] = .ok (.muls 1 2) [] ∧
  decodeBytes [0x9E, 0x00, 0xFF, 0xFE] = .ok (.jmp 0xFFFE) [] ∧
  decodeBytes [0x04, 0x10] = .ok (.push 1) [] ∧
  decodeBytes [0xF8, 0x02, 0x00, 0x10] = .ok (.ccbBased 2 0x0010) [] ∧
  decodeBytes [0x00, 0xFF] = .ok .nop []

/-- 30_encoding.md R132, 40_move_store.md R212, 45_control.md R493: a second name has the words and the meaning of its first name. -/
def Obligations.SecondNamesAreTheFirst : Prop :=
  ∀ (i : Instr), encode i = encode i.primary ∧ ∀ s, exec i s = exec i.primary s

/-- 20_memory.md R65, 60_exceptions.md R601: where no interrupt is taken and the bytes at the pc, none of them written by the
program, are those of an instruction other than IRC, the step is the meaning of that instruction in the same state,
the environment's drive moved on to the next boundary. -/
def Obligations.StepRunsTheDecodedInstruction : Prop :=
  ∀ (s : State) (bs : List Byte) (i : Instr), s.accepted = none → s.misaligned s.pc = false →
    s.imageAt s.pc bs → decodeBytes bs = .ok i [] → i.notInternal = true → step s = exec i (s.withIrq s.irq.tail)

/-- 30_encoding.md R121, R123: where no interrupt is taken, an unassigned opcode halfword at the pc is refused, whatever follows
it, and so is the opcode of IRC. -/
def Obligations.UnassignedAndInternalOpcodesRefused : Prop :=
  ∀ (s : State) (b0 b1 : Byte), s.accepted = none → s.misaligned s.pc = false → s.imageAt s.pc [b0, b1] →
    (unassignedNibbles (b0.toNat / 16) (b0.toNat % 16) (b1.toNat / 16) (b1.toNat % 16) = true →
      step s = .refused (.unassignedOpcode (b0 ++ b1))) ∧
    (b0 = 0xA8 → b1.toNat < 16 → step s = .refused .ircFetched)

/-- 20_memory.md R76: where no interrupt is taken, a fetch that comes to a byte which the program has written is refused, at each
of the two or four bytes of the instruction; before that, a fetch at an odd pc under `ALIGN_POLICY = refuse` is (R66). -/
def Obligations.FetchOfWrittenBytesRefused : Prop :=
  ∀ (s : State) (b0 b1 b2 : Byte) (i : Instr), s.accepted = none →
    (s.misaligned s.pc = true → step s = .refused (.misalignedAccess s.pc)) ∧
    (s.misaligned s.pc = false →
    (s.pc.toNat ∈ s.written → step s = .refused (.fetchOfWrittenByte s.pc)) ∧
    (s.imageAt s.pc [b0] → (s.pc + 1).toNat ∈ s.written → step s = .refused (.fetchOfWrittenByte (s.pc + 1))) ∧
    (b0.msb = true → decodeWords (b0 ++ b1) 0 = some i → i.notInternal = true →
      (s.imageAt s.pc [b0, b1] → (s.pc + 2).toNat ∈ s.written →
        step s = .refused (.fetchOfWrittenByte (s.pc + 2))) ∧
      (s.imageAt s.pc [b0, b1, b2] → (s.pc + 3).toNat ∈ s.written →
        step s = .refused (.fetchOfWrittenByte (s.pc + 3)))))

/-- 70_reset_and_hazards.md R705: from the end marker on, where no interrupt can arrive any more, no number of steps changes
anything of the machine. -/
def Obligations.EndMarkerChangesNothing : Prop :=
  ∀ (s : State) (k : Nat), s.atEnd → stepsTo k s = .next (s.withIrq (s.irq.drop k))

/-! ### The whole machine -/

/-- Every step keeps the invariant of memory and of the address lists, and every parameter (00_scope.md R6). -/
def Obligations.EveryStepKeepsTheInvariant : Prop :=
  ∀ (s t : State), s.Inv → step s = .next t → t.Inv ∧ t.params = s.params

/-- The state after reset has the invariant, on every platform. -/
def Obligations.ResetHasTheInvariant : Prop := State.reset.Inv ∧ ∀ p, (State.resetWith p).Inv

/-- 10_state.md R40, 70_reset_and_hazards.md R701, R702: after reset the pc and IF are at their parameters, by default 0x0000 and
0, no request is pending at any boundary, no byte of memory has a value or has been written, R0 reads zero. -/
def Obligations.ResetState : Prop :=
  State.reset.pc = 0x0000 ∧ State.reset.fr.IF = false ∧ State.reset = State.resetWith Config.specDefaults ∧
  ∀ (p : Config.Params),
    let s := State.resetWith p
    s.params = p ∧ s.pc = p.resetPc ∧ s.fr.IF = p.resetIf ∧ s.request = none ∧ s.irq = [] ∧
      (∀ a, s.byteAt a = none) ∧ s.written = [] ∧ s.reg 0 = 0

/-- The model's choice for undefined flags (notes/assumptions/9.md): how many bits have been drawn before is seen by no
instruction except in flags that the source leaves undefined (10_state.md R37; 93_implementation_defined.md U1): in OF after
AND, the shifts and rotates and the multiplications, in AF after NEG and the multiplications. -/
def Obligations.DrawsReachOnlyUndefinedFlags : Prop :=
  ∀ (i : Instr) (s t : State) (n : Nat), exec i s = .next t →
    ∃ u, exec i (s.withFreeCount n) = .next u ∧ (u.withFr t.fr).withFreeCount 0 = t.withFreeCount 0 ∧
      u.fr.CF = t.fr.CF ∧ u.fr.ZF = t.fr.ZF ∧ u.fr.SF = t.fr.SF ∧ u.fr.IF = t.fr.IF ∧
      (u.fr.AF ≠ t.fr.AF → leavesAFOpen i) ∧ (u.fr.OF ≠ t.fr.OF → leavesOFOpen i) ∧
      (t.freeCount = s.freeCount → u.fr = t.fr) ∧ (t.freeCount ≠ s.freeCount → leavesAFOpen i ∨ leavesOFOpen i)

end
end

