-- ==== Sys2Proof/Laws/State.lean ====
section
/-! SUPPORT. Laws/State.lean: for each update of the state one lemma per field, so that no later proof unfolds a record update;
and what each update does to the reading of a register and of a byte.
-/
namespace Sys2Proof.Machine

/-! ### setReg -/

@[simp] theorem State.setReg_params (s : State) (r : RegNum) (v : Word) : (s.setReg r v).params = s.params := by
  unfold State.setReg; split <;> rfl
@[simp] theorem State.setReg_pc (s : State) (r : RegNum) (v : Word) : (s.setReg r v).pc = s.pc := by
  unfold State.setReg; split <;> rfl
@[simp] theorem State.setReg_fr (s : State) (r : RegNum) (v : Word) : (s.setReg r v).fr = s.fr := by
  unfold State.setReg; split <;> rfl
@[simp] theorem State.setReg_hr (s : State) (r : RegNum) (v : Word) : (s.setReg r v).hr = s.hr := by
  unfold State.setReg; split <;> rfl
@[simp] theorem State.setReg_mem (s : State) (r : RegNum) (v : Word) : (s.setReg r v).mem = s.mem := by
  unfold State.setReg; split <;> rfl
@[simp] theorem State.setReg_written (s : State) (r : RegNum) (v : Word) : (s.setReg r v).written = s.written := by
  unfold State.setReg; split <;> rfl
@[simp] theorem State.setReg_irq (s : State) (r : RegNum) (v : Word) : (s.setReg r v).irq = s.irq := by
  unfold State.setReg; split <;> rfl
@[simp] theorem State.setReg_freeCount (s : State) (r : RegNum) (v : Word) : (s.setReg r v).freeCount = s.freeCount := by
  unfold State.setReg; split <;> rfl
@[simp] theorem State.setReg_icacheCleared (s : State) (r : RegNum) (v : Word) : (s.setReg r v).icacheCleared = s.icacheCleared := by
  unfold State.setReg; split <;> rfl
@[simp] theorem State.setReg_dcacheCleared (s : State) (r : RegNum) (v : Word) : (s.setReg r v).dcacheCleared = s.dcacheCleared := by
  unfold State.setReg; split <;> rfl
@[simp] theorem State.byteAt_setReg (s : State) (r : RegNum) (v : Word) (x : Word) : (s.setReg r v).byteAt x = s.byteAt x := by simp [State.byteAt]
@[simp] theorem State.kindAt_setReg (s : State) (r : RegNum) (v : Word) (x : Word) : (s.setReg r v).kindAt x = s.kindAt x := by simp [State.kindAt]
@[simp] theorem State.misaligned_setReg (s : State) (r : RegNum) (v : Word) (x : Word) : (s.setReg r v).misaligned x = s.misaligned x := by simp [State.misaligned]
@[simp] theorem State.hidden_setReg (s : State) (r : RegNum) (v : Word) (j : Nibble) : (s.setReg r v).hidden j = s.hidden j := by simp [State.hidden]
@[simp] theorem State.hr0_setReg (s : State) (r : RegNum) (v : Word) : (s.setReg r v).hr0 = s.hr0 := by simp [State.hr0]

/-! ### withPc -/

@[simp] theorem State.withPc_params (s : State) (t : Word) : (s.withPc t).params = s.params := rfl
@[simp] theorem State.withPc_regs (s : State) (t : Word) : (s.withPc t).regs = s.regs := rfl
@[simp] theorem State.withPc_pc (s : State) (t : Word) : (s.withPc t).pc = t := rfl
@[simp] theorem State.withPc_fr (s : State) (t : Word) : (s.withPc t).fr = s.fr := rfl
@[simp] theorem State.withPc_hr (s : State) (t : Word) : (s.withPc t).hr = s.hr := rfl
@[simp] theorem State.withPc_mem (s : State) (t : Word) : (s.withPc t).mem = s.mem := rfl
@[simp] theorem State.withPc_written (s : State) (t : Word) : (s.withPc t).written = s.written := rfl
@[simp] theorem State.withPc_irq (s : State) (t : Word) : (s.withPc t).irq = s.irq := rfl
@[simp] theorem State.withPc_freeCount (s : State) (t : Word) : (s.withPc t).freeCount = s.freeCount := rfl
@[simp] theorem State.withPc_icacheCleared (s : State) (t : Word) : (s.withPc t).icacheCleared = s.icacheCleared := rfl
@[simp] theorem State.withPc_dcacheCleared (s : State) (t : Word) : (s.withPc t).dcacheCleared = s.dcacheCleared := rfl
@[simp] theorem State.reg_withPc (s : State) (t : Word) (x : RegNum) : (s.withPc t).reg x = s.reg x := rfl
@[simp] theorem State.byteAt_withPc (s : State) (t : Word) (x : Word) : (s.withPc t).byteAt x = s.byteAt x := by simp [State.byteAt]
@[simp] theorem State.kindAt_withPc (s : State) (t : Word) (x : Word) : (s.withPc t).kindAt x = s.kindAt x := by simp [State.kindAt]
@[simp] theorem State.misaligned_withPc (s : State) (t : Word) (x : Word) : (s.withPc t).misaligned x = s.misaligned x := by simp [State.misaligned]
@[simp] theorem State.hidden_withPc (s : State) (t : Word) (j : Nibble) : (s.withPc t).hidden j = s.hidden j := by simp [State.hidden]
@[simp] theorem State.hr0_withPc (s : State) (t : Word) : (s.withPc t).hr0 = s.hr0 := by simp [State.hr0]

/-! ### advance -/

@[simp] theorem State.advance_params (s : State) (n : Word) : (s.advance n).params = s.params := rfl
@[simp] theorem State.advance_regs (s : State) (n : Word) : (s.advance n).regs = s.regs := rfl
@[simp] theorem State.advance_pc (s : State) (n : Word) : (s.advance n).pc = s.pc + n := rfl
@[simp] theorem State.advance_fr (s : State) (n : Word) : (s.advance n).fr = s.fr := rfl
@[simp] theorem State.advance_hr (s : State) (n : Word) : (s.advance n).hr = s.hr := rfl
@[simp] theorem State.advance_mem (s : State) (n : Word) : (s.advance n).mem = s.mem := rfl
@[simp] theorem State.advance_written (s : State) (n : Word) : (s.advance n).written = s.written := rfl
@[simp] theorem State.advance_irq (s : State) (n : Word) : (s.advance n).irq = s.irq := rfl
@[simp] theorem State.advance_freeCount (s : State) (n : Word) : (s.advance n).freeCount = s.freeCount := rfl
@[simp] theorem State.advance_icacheCleared (s : State) (n : Word) : (s.advance n).icacheCleared = s.icacheCleared := rfl
@[simp] theorem State.advance_dcacheCleared (s : State) (n : Word) : (s.advance n).dcacheCleared = s.dcacheCleared := rfl
@[simp] theorem State.reg_advance (s : State) (n : Word) (x : RegNum) : (s.advance n).reg x = s.reg x := rfl
@[simp] theorem State.byteAt_advance (s : State) (n : Word) (x : Word) : (s.advance n).byteAt x = s.byteAt x := by simp [State.byteAt]
@[simp] theorem State.kindAt_advance (s : State) (n : Word) (x : Word) : (s.advance n).kindAt x = s.kindAt x := by simp [State.kindAt]
@[simp] theorem State.misaligned_advance (s : State) (n : Word) (x : Word) : (s.advance n).misaligned x = s.misaligned x := by simp [State.misaligned]
@[simp] theorem State.hidden_advance (s : State) (n : Word) (j : Nibble) : (s.advance n).hidden j = s.hidden j := by simp [State.hidden]
@[simp] theorem State.hr0_advance (s : State) (n : Word) : (s.advance n).hr0 = s.hr0 := by simp [State.hr0]

/-! ### withFr -/

@[simp] theorem State.withFr_params (s : State) (f : Flags) : (s.withFr f).params = s.params := rfl
@[simp] theorem State.withFr_regs (s : State) (f : Flags) : (s.withFr f).regs = s.regs := rfl
@[simp] theorem State.withFr_pc (s : State) (f : Flags) : (s.withFr f).pc = s.pc := rfl
@[simp] theorem State.withFr_fr (s : State) (f : Flags) : (s.withFr f).fr = f := rfl
@[simp] theorem State.withFr_hr (s : State) (f : Flags) : (s.withFr f).hr = s.hr := rfl
@[simp] theorem State.withFr_mem (s : State) (f : Flags) : (s.withFr f).mem = s.mem := rfl
@[simp] theorem State.withFr_written (s : State) (f : Flags) : (s.withFr f).written = s.written := rfl
@[simp] theorem State.withFr_irq (s : State) (f : Flags) : (s.withFr f).irq = s.irq := rfl
@[simp] theorem State.withFr_freeCount (s : State) (f : Flags) : (s.withFr f).freeCount = s.freeCount := rfl
@[simp] theorem State.withFr_icacheCleared (s : State) (f : Flags) : (s.withFr f).icacheCleared = s.icacheCleared := rfl
@[simp] theorem State.withFr_dcacheCleared (s : State) (f : Flags) : (s.withFr f).dcacheCleared = s.dcacheCleared := rfl
@[simp] theorem State.reg_withFr (s : State) (f : Flags) (x : RegNum) : (s.withFr f).reg x = s.reg x := rfl
@[simp] theorem State.byteAt_withFr (s : State) (f : Flags) (x : Word) : (s.withFr f).byteAt x = s.byteAt x := by simp [State.byteAt]
@[simp] theorem State.kindAt_withFr (s : State) (f : Flags) (x : Word) : (s.withFr f).kindAt x = s.kindAt x := by simp [State.kindAt]
@[simp] theorem State.misaligned_withFr (s : State) (f : Flags) (x : Word) : (s.withFr f).misaligned x = s.misaligned x := by simp [State.misaligned]
@[simp] theorem State.hidden_withFr (s : State) (f : Flags) (j : Nibble) : (s.withFr f).hidden j = s.hidden j := by simp [State.hidden]
@[simp] theorem State.hr0_withFr (s : State) (f : Flags) : (s.withFr f).hr0 = s.hr0 := by simp [State.hr0]

/-! ### withIF -/

@[simp] theorem State.withIF_params (s : State) (b : Bool) : (s.withIF b).params = s.params := rfl
@[simp] theorem State.withIF_regs (s : State) (b : Bool) : (s.withIF b).regs = s.regs := rfl
@[simp] theorem State.withIF_pc (s : State) (b : Bool) : (s.withIF b).pc = s.pc := rfl
@[simp] theorem State.withIF_fr (s : State) (b : Bool) : (s.withIF b).fr = { s.fr with IF := b } := rfl
@[simp] theorem State.withIF_hr (s : State) (b : Bool) : (s.withIF b).hr = s.hr := rfl
@[simp] theorem State.withIF_mem (s : State) (b : Bool) : (s.withIF b).mem = s.mem := rfl
@[simp] theorem State.withIF_written (s : State) (b : Bool) : (s.withIF b).written = s.written := rfl
@[simp] theorem State.withIF_irq (s : State) (b : Bool) : (s.withIF b).irq = s.irq := rfl
@[simp] theorem State.withIF_freeCount (s : State) (b : Bool) : (s.withIF b).freeCount = s.freeCount := rfl
@[simp] theorem State.withIF_icacheCleared (s : State) (b : Bool) : (s.withIF b).icacheCleared = s.icacheCleared := rfl
@[simp] theorem State.withIF_dcacheCleared (s : State) (b : Bool) : (s.withIF b).dcacheCleared = s.dcacheCleared := rfl
@[simp] theorem State.reg_withIF (s : State) (b : Bool) (x : RegNum) : (s.withIF b).reg x = s.reg x := rfl
@[simp] theorem State.byteAt_withIF (s : State) (b : Bool) (x : Word) : (s.withIF b).byteAt x = s.byteAt x := by simp [State.byteAt]
@[simp] theorem State.kindAt_withIF (s : State) (b : Bool) (x : Word) : (s.withIF b).kindAt x = s.kindAt x := by simp [State.kindAt]
@[simp] theorem State.misaligned_withIF (s : State) (b : Bool) (x : Word) : (s.withIF b).misaligned x = s.misaligned x := by simp [State.misaligned]
@[simp] theorem State.hidden_withIF (s : State) (b : Bool) (j : Nibble) : (s.withIF b).hidden j = s.hidden j := by simp [State.hidden]
@[simp] theorem State.hr0_withIF (s : State) (b : Bool) : (s.withIF b).hr0 = s.hr0 := by simp [State.hr0]

/-! ### withCF -/

@[simp] theorem State.withCF_params (s : State) (b : Bool) : (s.withCF b).params = s.params := rfl
@[simp] theorem State.withCF_regs (s : State) (b : Bool) : (s.withCF b).regs = s.regs := rfl
@[simp] theorem State.withCF_pc (s : State) (b : Bool) : (s.withCF b).pc = s.pc := rfl
@[simp] theorem State.withCF_fr (s : State) (b : Bool) : (s.withCF b).fr = { s.fr with CF := b } := rfl
@[simp] theorem State.withCF_hr (s : State) (b : Bool) : (s.withCF b).hr = s.hr := rfl
@[simp] theorem State.withCF_mem (s : State) (b : Bool) : (s.withCF b).mem = s.mem := rfl
@[simp] theorem State.withCF_written (s : State) (b : Bool) : (s.withCF b).written = s.written := rfl
@[simp] theorem State.withCF_irq (s : State) (b : Bool) : (s.withCF b).irq = s.irq := rfl
@[simp] theorem State.withCF_freeCount (s : State) (b : Bool) : (s.withCF b).freeCount = s.freeCount := rfl
@[simp] theorem State.withCF_icacheCleared (s : State) (b : Bool) : (s.withCF b).icacheCleared = s.icacheCleared := rfl
@[simp] theorem State.withCF_dcacheCleared (s : State) (b : Bool) : (s.withCF b).dcacheCleared = s.dcacheCleared := rfl
@[simp] theorem State.reg_withCF (s : State) (b : Bool) (x : RegNum) : (s.withCF b).reg x = s.reg x := rfl
@[simp] theorem State.byteAt_withCF (s : State) (b : Bool) (x : Word) : (s.withCF b).byteAt x = s.byteAt x := by simp [State.byteAt]
@[simp] theorem State.kindAt_withCF (s : State) (b : Bool) (x : Word) : (s.withCF b).kindAt x = s.kindAt x := by simp [State.kindAt]
@[simp] theorem State.misaligned_withCF (s : State) (b : Bool) (x : Word) : (s.withCF b).misaligned x = s.misaligned x := by simp [State.misaligned]
@[simp] theorem State.hidden_withCF (s : State) (b : Bool) (j : Nibble) : (s.withCF b).hidden j = s.hidden j := by simp [State.hidden]
@[simp] theorem State.hr0_withCF (s : State) (b : Bool) : (s.withCF b).hr0 = s.hr0 := by simp [State.hr0]

/-! ### withHr0 -/

@[simp] theorem State.withHr0_params (s : State) (v : Word) : (s.withHr0 v).params = s.params := rfl
@[simp] theorem State.withHr0_regs (s : State) (v : Word) : (s.withHr0 v).regs = s.regs := rfl
@[simp] theorem State.withHr0_pc (s : State) (v : Word) : (s.withHr0 v).pc = s.pc := rfl
@[simp] theorem State.withHr0_fr (s : State) (v : Word) : (s.withHr0 v).fr = s.fr := rfl
@[simp] theorem State.withHr0_mem (s : State) (v : Word) : (s.withHr0 v).mem = s.mem := rfl
@[simp] theorem State.withHr0_written (s : State) (v : Word) : (s.withHr0 v).written = s.written := rfl
@[simp] theorem State.withHr0_irq (s : State) (v : Word) : (s.withHr0 v).irq = s.irq := rfl
@[simp] theorem State.withHr0_freeCount (s : State) (v : Word) : (s.withHr0 v).freeCount = s.freeCount := rfl
@[simp] theorem State.withHr0_icacheCleared (s : State) (v : Word) : (s.withHr0 v).icacheCleared = s.icacheCleared := rfl
@[simp] theorem State.withHr0_dcacheCleared (s : State) (v : Word) : (s.withHr0 v).dcacheCleared = s.dcacheCleared := rfl
@[simp] theorem State.reg_withHr0 (s : State) (v : Word) (x : RegNum) : (s.withHr0 v).reg x = s.reg x := rfl
@[simp] theorem State.byteAt_withHr0 (s : State) (v : Word) (x : Word) : (s.withHr0 v).byteAt x = s.byteAt x := by simp [State.byteAt]
@[simp] theorem State.kindAt_withHr0 (s : State) (v : Word) (x : Word) : (s.withHr0 v).kindAt x = s.kindAt x := by simp [State.kindAt]
@[simp] theorem State.misaligned_withHr0 (s : State) (v : Word) (x : Word) : (s.withHr0 v).misaligned x = s.misaligned x := by simp [State.misaligned]

/-! ### withFreeCount -/

@[simp] theorem State.withFreeCount_params (s : State) (n : Nat) : (s.withFreeCount n).params = s.params := rfl
@[simp] theorem State.withFreeCount_regs (s : State) (n : Nat) : (s.withFreeCount n).regs = s.regs := rfl
@[simp] theorem State.withFreeCount_pc (s : State) (n : Nat) : (s.withFreeCount n).pc = s.pc := rfl
@[simp] theorem State.withFreeCount_fr (s : State) (n : Nat) : (s.withFreeCount n).fr = s.fr := rfl
@[simp] theorem State.withFreeCount_hr (s : State) (n : Nat) : (s.withFreeCount n).hr = s.hr := rfl
@[simp] theorem State.withFreeCount_mem (s : State) (n : Nat) : (s.withFreeCount n).mem = s.mem := rfl
@[simp] theorem State.withFreeCount_written (s : State) (n : Nat) : (s.withFreeCount n).written = s.written := rfl
@[simp] theorem State.withFreeCount_irq (s : State) (n : Nat) : (s.withFreeCount n).irq = s.irq := rfl
@[simp] theorem State.withFreeCount_freeCount (s : State) (n : Nat) : (s.withFreeCount n).freeCount = n := rfl
@[simp] theorem State.withFreeCount_icacheCleared (s : State) (n : Nat) : (s.withFreeCount n).icacheCleared = s.icacheCleared := rfl
@[simp] theorem State.withFreeCount_dcacheCleared (s : State) (n : Nat) : (s.withFreeCount n).dcacheCleared = s.dcacheCleared := rfl
@[simp] theorem State.reg_withFreeCount (s : State) (n : Nat) (x : RegNum) : (s.withFreeCount n).reg x = s.reg x := rfl
@[simp] theorem State.byteAt_withFreeCount (s : State) (n : Nat) (x : Word) : (s.withFreeCount n).byteAt x = s.byteAt x := by simp [State.byteAt]
@[simp] theorem State.kindAt_withFreeCount (s : State) (n : Nat) (x : Word) : (s.withFreeCount n).kindAt x = s.kindAt x := by simp [State.kindAt]
@[simp] theorem State.misaligned_withFreeCount (s : State) (n : Nat) (x : Word) : (s.withFreeCount n).misaligned x = s.misaligned x := by simp [State.misaligned]
@[simp] theorem State.hidden_withFreeCount (s : State) (n : Nat) (j : Nibble) : (s.withFreeCount n).hidden j = s.hidden j := by simp [State.hidden]
@[simp] theorem State.hr0_withFreeCount (s : State) (n : Nat) : (s.withFreeCount n).hr0 = s.hr0 := by simp [State.hr0]

/-! ### withIrq -/

@[simp] theorem State.withIrq_params (s : State) (q : List (Option Word)) : (s.withIrq q).params = s.params := rfl
@[simp] theorem State.withIrq_regs (s : State) (q : List (Option Word)) : (s.withIrq q).regs = s.regs := rfl
@[simp] theorem State.withIrq_pc (s : State) (q : List (Option Word)) : (s.withIrq q).pc = s.pc := rfl
@[simp] theorem State.withIrq_fr (s : State) (q : List (Option Word)) : (s.withIrq q).fr = s.fr := rfl
@[simp] theorem State.withIrq_hr (s : State) (q : List (Option Word)) : (s.withIrq q).hr = s.hr := rfl
@[simp] theorem State.withIrq_mem (s : State) (q : List (Option Word)) : (s.withIrq q).mem = s.mem := rfl
@[simp] theorem State.withIrq_written (s : State) (q : List (Option Word)) : (s.withIrq q).written = s.written := rfl
@[simp] theorem State.withIrq_irq (s : State) (q : List (Option Word)) : (s.withIrq q).irq = q := rfl
@[simp] theorem State.withIrq_freeCount (s : State) (q : List (Option Word)) : (s.withIrq q).freeCount = s.freeCount := rfl
@[simp] theorem State.withIrq_icacheCleared (s : State) (q : List (Option Word)) : (s.withIrq q).icacheCleared = s.icacheCleared := rfl
@[simp] theorem State.withIrq_dcacheCleared (s : State) (q : List (Option Word)) : (s.withIrq q).dcacheCleared = s.dcacheCleared := rfl
@[simp] theorem State.reg_withIrq (s : State) (q : List (Option Word)) (x : RegNum) : (s.withIrq q).reg x = s.reg x := rfl
@[simp] theorem State.byteAt_withIrq (s : State) (q : List (Option Word)) (x : Word) : (s.withIrq q).byteAt x = s.byteAt x := by simp [State.byteAt]
@[simp] theorem State.kindAt_withIrq (s : State) (q : List (Option Word)) (x : Word) : (s.withIrq q).kindAt x = s.kindAt x := by simp [State.kindAt]
@[simp] theorem State.misaligned_withIrq (s : State) (q : List (Option Word)) (x : Word) : (s.withIrq q).misaligned x = s.misaligned x := by simp [State.misaligned]
@[simp] theorem State.hidden_withIrq (s : State) (q : List (Option Word)) (j : Nibble) : (s.withIrq q).hidden j = s.hidden j := by simp [State.hidden]
@[simp] theorem State.hr0_withIrq (s : State) (q : List (Option Word)) : (s.withIrq q).hr0 = s.hr0 := by simp [State.hr0]

/-! ### drawn -/

@[simp] theorem State.drawn_params (s : State) (k : Nat) : (s.drawn k).params = s.params := rfl
@[simp] theorem State.drawn_regs (s : State) (k : Nat) : (s.drawn k).regs = s.regs := rfl
@[simp] theorem State.drawn_pc (s : State) (k : Nat) : (s.drawn k).pc = s.pc := rfl
@[simp] theorem State.drawn_fr (s : State) (k : Nat) : (s.drawn k).fr = s.fr := rfl
@[simp] theorem State.drawn_hr (s : State) (k : Nat) : (s.drawn k).hr = s.hr := rfl
@[simp] theorem State.drawn_mem (s : State) (k : Nat) : (s.drawn k).mem = s.mem := rfl
@[simp] theorem State.drawn_written (s : State) (k : Nat) : (s.drawn k).written = s.written := rfl
@[simp] theorem State.drawn_irq (s : State) (k : Nat) : (s.drawn k).irq = s.irq := rfl
@[simp] theorem State.drawn_freeCount (s : State) (k : Nat) : (s.drawn k).freeCount = s.freeCount + k := rfl
@[simp] theorem State.drawn_icacheCleared (s : State) (k : Nat) : (s.drawn k).icacheCleared = s.icacheCleared := rfl
@[simp] theorem State.drawn_dcacheCleared (s : State) (k : Nat) : (s.drawn k).dcacheCleared = s.dcacheCleared := rfl
@[simp] theorem State.reg_drawn (s : State) (k : Nat) (x : RegNum) : (s.drawn k).reg x = s.reg x := rfl
@[simp] theorem State.byteAt_drawn (s : State) (k : Nat) (x : Word) : (s.drawn k).byteAt x = s.byteAt x := by simp [State.byteAt]
@[simp] theorem State.kindAt_drawn (s : State) (k : Nat) (x : Word) : (s.drawn k).kindAt x = s.kindAt x := by simp [State.kindAt]
@[simp] theorem State.misaligned_drawn (s : State) (k : Nat) (x : Word) : (s.drawn k).misaligned x = s.misaligned x := by simp [State.misaligned]
@[simp] theorem State.hidden_drawn (s : State) (k : Nat) (j : Nibble) : (s.drawn k).hidden j = s.hidden j := by simp [State.hidden]
@[simp] theorem State.hr0_drawn (s : State) (k : Nat) : (s.drawn k).hr0 = s.hr0 := by simp [State.hr0]

/-! ### storeByte -/

@[simp] theorem State.storeByte_params (s : State) (a : Word) (b : Byte) : (s.storeByte a b).params = s.params := rfl
@[simp] theorem State.storeByte_regs (s : State) (a : Word) (b : Byte) : (s.storeByte a b).regs = s.regs := rfl
@[simp] theorem State.storeByte_pc (s : State) (a : Word) (b : Byte) : (s.storeByte a b).pc = s.pc := rfl
@[simp] theorem State.storeByte_fr (s : State) (a : Word) (b : Byte) : (s.storeByte a b).fr = s.fr := rfl
@[simp] theorem State.storeByte_hr (s : State) (a : Word) (b : Byte) : (s.storeByte a b).hr = s.hr := rfl
@[simp] theorem State.storeByte_mem (s : State) (a : Word) (b : Byte) : (s.storeByte a b).mem = s.mem.set a.toNat b := rfl
@[simp] theorem State.storeByte_written (s : State) (a : Word) (b : Byte) : (s.storeByte a b).written = insertAddr s.written a.toNat := rfl
@[simp] theorem State.storeByte_irq (s : State) (a : Word) (b : Byte) : (s.storeByte a b).irq = s.irq := rfl
@[simp] theorem State.storeByte_freeCount (s : State) (a : Word) (b : Byte) : (s.storeByte a b).freeCount = s.freeCount := rfl
@[simp] theorem State.storeByte_icacheCleared (s : State) (a : Word) (b : Byte) : (s.storeByte a b).icacheCleared = s.icacheCleared := rfl
@[simp] theorem State.storeByte_dcacheCleared (s : State) (a : Word) (b : Byte) : (s.storeByte a b).dcacheCleared = s.dcacheCleared := rfl
@[simp] theorem State.reg_storeByte (s : State) (a : Word) (b : Byte) (x : RegNum) : (s.storeByte a b).reg x = s.reg x := rfl
@[simp] theorem State.kindAt_storeByte (s : State) (a : Word) (b : Byte) (x : Word) : (s.storeByte a b).kindAt x = s.kindAt x := by simp [State.kindAt]
@[simp] theorem State.misaligned_storeByte (s : State) (a : Word) (b : Byte) (x : Word) : (s.storeByte a b).misaligned x = s.misaligned x := by simp [State.misaligned]
@[simp] theorem State.hidden_storeByte (s : State) (a : Word) (b : Byte) (j : Nibble) : (s.storeByte a b).hidden j = s.hidden j := by simp [State.hidden]
@[simp] theorem State.hr0_storeByte (s : State) (a : Word) (b : Byte) : (s.storeByte a b).hr0 = s.hr0 := by simp [State.hr0]

/-! ### storeWord -/

@[simp] theorem State.storeWord_params (s : State) (a v : Word) : (s.storeWord a v).params = s.params := rfl
@[simp] theorem State.storeWord_regs (s : State) (a v : Word) : (s.storeWord a v).regs = s.regs := rfl
@[simp] theorem State.storeWord_pc (s : State) (a v : Word) : (s.storeWord a v).pc = s.pc := rfl
@[simp] theorem State.storeWord_fr (s : State) (a v : Word) : (s.storeWord a v).fr = s.fr := rfl
@[simp] theorem State.storeWord_hr (s : State) (a v : Word) : (s.storeWord a v).hr = s.hr := rfl
@[simp] theorem State.storeWord_irq (s : State) (a v : Word) : (s.storeWord a v).irq = s.irq := rfl
@[simp] theorem State.storeWord_freeCount (s : State) (a v : Word) : (s.storeWord a v).freeCount = s.freeCount := rfl
@[simp] theorem State.storeWord_icacheCleared (s : State) (a v : Word) : (s.storeWord a v).icacheCleared = s.icacheCleared := rfl
@[simp] theorem State.storeWord_dcacheCleared (s : State) (a v : Word) : (s.storeWord a v).dcacheCleared = s.dcacheCleared := rfl
@[simp] theorem State.reg_storeWord (s : State) (a v : Word) (x : RegNum) : (s.storeWord a v).reg x = s.reg x := rfl
@[simp] theorem State.kindAt_storeWord (s : State) (a v : Word) (x : Word) : (s.storeWord a v).kindAt x = s.kindAt x := by simp [State.kindAt]
@[simp] theorem State.misaligned_storeWord (s : State) (a v : Word) (x : Word) : (s.storeWord a v).misaligned x = s.misaligned x := by simp [State.misaligned]
@[simp] theorem State.hidden_storeWord (s : State) (a v : Word) (j : Nibble) : (s.storeWord a v).hidden j = s.hidden j := by simp [State.hidden]
@[simp] theorem State.hr0_storeWord (s : State) (a v : Word) : (s.storeWord a v).hr0 = s.hr0 := by simp [State.hr0]

/-! ### poke -/

@[simp] theorem State.poke_params (s : State) (a : Word) (b : Byte) : (s.poke a b).params = s.params := rfl
@[simp] theorem State.poke_regs (s : State) (a : Word) (b : Byte) : (s.poke a b).regs = s.regs := rfl
@[simp] theorem State.poke_pc (s : State) (a : Word) (b : Byte) : (s.poke a b).pc = s.pc := rfl
@[simp] theorem State.poke_fr (s : State) (a : Word) (b : Byte) : (s.poke a b).fr = s.fr := rfl
@[simp] theorem State.poke_hr (s : State) (a : Word) (b : Byte) : (s.poke a b).hr = s.hr := rfl
@[simp] theorem State.poke_mem (s : State) (a : Word) (b : Byte) : (s.poke a b).mem = s.mem.set a.toNat b := rfl
@[simp] theorem State.poke_written (s : State) (a : Word) (b : Byte) : (s.poke a b).written = eraseAddr s.written a.toNat := rfl
@[simp] theorem State.poke_irq (s : State) (a : Word) (b : Byte) : (s.poke a b).irq = s.irq := rfl
@[simp] theorem State.poke_freeCount (s : State) (a : Word) (b : Byte) : (s.poke a b).freeCount = s.freeCount := rfl
@[simp] theorem State.poke_icacheCleared (s : State) (a : Word) (b : Byte) : (s.poke a b).icacheCleared = s.icacheCleared := rfl
@[simp] theorem State.poke_dcacheCleared (s : State) (a : Word) (b : Byte) : (s.poke a b).dcacheCleared = s.dcacheCleared := rfl
@[simp] theorem State.reg_poke (s : State) (a : Word) (b : Byte) (x : RegNum) : (s.poke a b).reg x = s.reg x := rfl
@[simp] theorem State.kindAt_poke (s : State) (a : Word) (b : Byte) (x : Word) : (s.poke a b).kindAt x = s.kindAt x := by simp [State.kindAt]
@[simp] theorem State.misaligned_poke (s : State) (a : Word) (b : Byte) (x : Word) : (s.poke a b).misaligned x = s.misaligned x := by simp [State.misaligned]
@[simp] theorem State.hidden_poke (s : State) (a : Word) (b : Byte) (j : Nibble) : (s.poke a b).hidden j = s.hidden j := by simp [State.hidden]
@[simp] theorem State.hr0_poke (s : State) (a : Word) (b : Byte) : (s.poke a b).hr0 = s.hr0 := by simp [State.hr0]

/-! ### clearValidBits -/

@[simp] theorem State.clearValidBits_params (s : State) (a : Word) : (s.clearValidBits a).params = s.params := rfl
@[simp] theorem State.clearValidBits_regs (s : State) (a : Word) : (s.clearValidBits a).regs = s.regs := rfl
@[simp] theorem State.clearValidBits_pc (s : State) (a : Word) : (s.clearValidBits a).pc = s.pc := rfl
@[simp] theorem State.clearValidBits_fr (s : State) (a : Word) : (s.clearValidBits a).fr = s.fr := rfl
@[simp] theorem State.clearValidBits_hr (s : State) (a : Word) : (s.clearValidBits a).hr = s.hr := rfl
@[simp] theorem State.clearValidBits_mem (s : State) (a : Word) : (s.clearValidBits a).mem = s.mem := rfl
@[simp] theorem State.clearValidBits_written (s : State) (a : Word) : (s.clearValidBits a).written = s.written := rfl
@[simp] theorem State.clearValidBits_irq (s : State) (a : Word) : (s.clearValidBits a).irq = s.irq := rfl
@[simp] theorem State.clearValidBits_freeCount (s : State) (a : Word) : (s.clearValidBits a).freeCount = s.freeCount := rfl
@[simp] theorem State.clearValidBits_icacheCleared (s : State) (a : Word) : (s.clearValidBits a).icacheCleared = insertAddr s.icacheCleared a.toNat := rfl
@[simp] theorem State.clearValidBits_dcacheCleared (s : State) (a : Word) : (s.clearValidBits a).dcacheCleared = insertAddr s.dcacheCleared a.toNat := rfl
@[simp] theorem State.reg_clearValidBits (s : State) (a : Word) (x : RegNum) : (s.clearValidBits a).reg x = s.reg x := rfl
@[simp] theorem State.byteAt_clearValidBits (s : State) (a : Word) (x : Word) : (s.clearValidBits a).byteAt x = s.byteAt x := by simp [State.byteAt]
@[simp] theorem State.kindAt_clearValidBits (s : State) (a : Word) (x : Word) : (s.clearValidBits a).kindAt x = s.kindAt x := by simp [State.kindAt]
@[simp] theorem State.misaligned_clearValidBits (s : State) (a : Word) (x : Word) : (s.clearValidBits a).misaligned x = s.misaligned x := by simp [State.misaligned]
@[simp] theorem State.hidden_clearValidBits (s : State) (a : Word) (j : Nibble) : (s.clearValidBits a).hidden j = s.hidden j := by simp [State.hidden]
@[simp] theorem State.hr0_clearValidBits (s : State) (a : Word) : (s.clearValidBits a).hr0 = s.hr0 := by simp [State.hr0]

/-! ### decSp -/

@[simp] theorem State.decSp_params (s : State) : (s.decSp).params = s.params := by simp [State.decSp]
@[simp] theorem State.decSp_pc (s : State) : (s.decSp).pc = s.pc := by simp [State.decSp]
@[simp] theorem State.decSp_fr (s : State) : (s.decSp).fr = s.fr := by simp [State.decSp]
@[simp] theorem State.decSp_hr (s : State) : (s.decSp).hr = s.hr := by simp [State.decSp]
@[simp] theorem State.decSp_mem (s : State) : (s.decSp).mem = s.mem := by simp [State.decSp]
@[simp] theorem State.decSp_written (s : State) : (s.decSp).written = s.written := by simp [State.decSp]
@[simp] theorem State.decSp_irq (s : State) : (s.decSp).irq = s.irq := by simp [State.decSp]
@[simp] theorem State.decSp_freeCount (s : State) : (s.decSp).freeCount = s.freeCount := by simp [State.decSp]
@[simp] theorem State.decSp_icacheCleared (s : State) : (s.decSp).icacheCleared = s.icacheCleared := by simp [State.decSp]
@[simp] theorem State.decSp_dcacheCleared (s : State) : (s.decSp).dcacheCleared = s.dcacheCleared := by simp [State.decSp]
@[simp] theorem State.byteAt_decSp (s : State) (x : Word) : (s.decSp).byteAt x = s.byteAt x := by simp [State.byteAt]
@[simp] theorem State.kindAt_decSp (s : State) (x : Word) : (s.decSp).kindAt x = s.kindAt x := by simp [State.kindAt]
@[simp] theorem State.misaligned_decSp (s : State) (x : Word) : (s.decSp).misaligned x = s.misaligned x := by simp [State.misaligned]
@[simp] theorem State.hidden_decSp (s : State) (j : Nibble) : (s.decSp).hidden j = s.hidden j := by simp [State.hidden]
@[simp] theorem State.hr0_decSp (s : State) : (s.decSp).hr0 = s.hr0 := by simp [State.hr0]

/-! ### incSp -/

@[simp] theorem State.incSp_params (s : State) : (s.incSp).params = s.params := by simp [State.incSp]
@[simp] theorem State.incSp_pc (s : State) : (s.incSp).pc = s.pc := by simp [State.incSp]
@[simp] theorem State.incSp_fr (s : State) : (s.incSp).fr = s.fr := by simp [State.incSp]
@[simp] theorem State.incSp_hr (s : State) : (s.incSp).hr = s.hr := by simp [State.incSp]
@[simp] theorem State.incSp_mem (s : State) : (s.incSp).mem = s.mem := by simp [State.incSp]
@[simp] theorem State.incSp_written (s : State) : (s.incSp).written = s.written := by simp [State.incSp]
@[simp] theorem State.incSp_irq (s : State) : (s.incSp).irq = s.irq := by simp [State.incSp]
@[simp] theorem State.incSp_freeCount (s : State) : (s.incSp).freeCount = s.freeCount := by simp [State.incSp]
@[simp] theorem State.incSp_icacheCleared (s : State) : (s.incSp).icacheCleared = s.icacheCleared := by simp [State.incSp]
@[simp] theorem State.incSp_dcacheCleared (s : State) : (s.incSp).dcacheCleared = s.dcacheCleared := by simp [State.incSp]
@[simp] theorem State.byteAt_incSp (s : State) (x : Word) : (s.incSp).byteAt x = s.byteAt x := by simp [State.byteAt]
@[simp] theorem State.kindAt_incSp (s : State) (x : Word) : (s.incSp).kindAt x = s.kindAt x := by simp [State.kindAt]
@[simp] theorem State.misaligned_incSp (s : State) (x : Word) : (s.incSp).misaligned x = s.misaligned x := by simp [State.misaligned]
@[simp] theorem State.hidden_incSp (s : State) (j : Nibble) : (s.incSp).hidden j = s.hidden j := by simp [State.hidden]
@[simp] theorem State.hr0_incSp (s : State) : (s.incSp).hr0 = s.hr0 := by simp [State.hr0]

/-! ### pastBoundary -/

@[simp] theorem State.pastBoundary_params (s : State) : (s.pastBoundary).params = s.params := rfl
@[simp] theorem State.pastBoundary_regs (s : State) : (s.pastBoundary).regs = s.regs := rfl
@[simp] theorem State.pastBoundary_pc (s : State) : (s.pastBoundary).pc = s.pc := rfl
@[simp] theorem State.pastBoundary_fr (s : State) : (s.pastBoundary).fr = s.fr := rfl
@[simp] theorem State.pastBoundary_hr (s : State) : (s.pastBoundary).hr = s.hr := rfl
@[simp] theorem State.pastBoundary_mem (s : State) : (s.pastBoundary).mem = s.mem := rfl
@[simp] theorem State.pastBoundary_written (s : State) : (s.pastBoundary).written = s.written := rfl
@[simp] theorem State.pastBoundary_irq (s : State) : (s.pastBoundary).irq = s.irq.tail := rfl
@[simp] theorem State.pastBoundary_freeCount (s : State) : (s.pastBoundary).freeCount = s.freeCount := rfl
@[simp] theorem State.pastBoundary_icacheCleared (s : State) : (s.pastBoundary).icacheCleared = s.icacheCleared := rfl
@[simp] theorem State.pastBoundary_dcacheCleared (s : State) : (s.pastBoundary).dcacheCleared = s.dcacheCleared := rfl
@[simp] theorem State.reg_pastBoundary (s : State) (x : RegNum) : (s.pastBoundary).reg x = s.reg x := rfl
@[simp] theorem State.byteAt_pastBoundary (s : State) (x : Word) : (s.pastBoundary).byteAt x = s.byteAt x := by simp [State.byteAt]
@[simp] theorem State.kindAt_pastBoundary (s : State) (x : Word) : (s.pastBoundary).kindAt x = s.kindAt x := by simp [State.kindAt]
@[simp] theorem State.misaligned_pastBoundary (s : State) (x : Word) : (s.pastBoundary).misaligned x = s.misaligned x := by simp [State.misaligned]
@[simp] theorem State.hidden_pastBoundary (s : State) (j : Nibble) : (s.pastBoundary).hidden j = s.hidden j := by simp [State.hidden]
@[simp] theorem State.hr0_pastBoundary (s : State) : (s.pastBoundary).hr0 = s.hr0 := by simp [State.hr0]

/-- A write of HR0 leaves the other hidden registers (10_state.md R35). -/
theorem State.hidden_withHr0 (s : State) (v : Word) (k : Nibble) :
    (s.withHr0 v).hidden k = if k = 0 then v else s.hidden k := by
  unfold State.hidden State.withHr0
  by_cases h : k = 0
  · subst h; simp
  · have hk : ¬ 0 = k.toNat := fun e => h (BitVec.eq_of_toNat_eq (by simpa using e.symm))
    simp only [Vector.getElem_set, hk, h, if_false]

@[simp] theorem State.hr0_withHr0 (s : State) (v : Word) : (s.withHr0 v).hr0 = v := by simp [State.hr0, State.withHr0]

end Sys2Proof.Machine
end

