-- ==== Sys2Proof/Laws/Memory.lean ====
section
/-! SUPPORT. Laws/Memory.lean: reading after a write of one byte; every memory operation keeps the canonical form; the lists of
addresses stay rising lists.
-/
namespace Sys2Proof.Machine

/-! ### Reading after writing -/

@[simp] theorem Memory.get_set_same (m : Memory) (a : Nat) (b : Byte) : (m.set a b).get a = some b := by
  induction m with
  | nil => simp [Memory.set, Memory.get]
  | cons c m ih =>
    unfold Memory.set
    split
    · simp [Memory.get]
    · split
      · simp [Memory.get]
      · rename_i h; simp [Memory.get, ih, Ne.symm h]

theorem Memory.get_set_other (m : Memory) {a x : Nat} (b : Byte) (h : x ≠ a) : (m.set a b).get x = m.get x := by
  induction m with
  | nil => simp [Memory.set, Memory.get, Ne.symm h]
  | cons c m ih =>
    unfold Memory.set
    split
    · simp [Memory.get, Ne.symm h]
    · split
      · rename_i e; subst e; simp [Memory.get, Ne.symm h]
      · simp [Memory.get, ih]

theorem Memory.get_set (m : Memory) (a x : Nat) (b : Byte) :
    (m.set a b).get x = if x = a then some b else m.get x := by
  split
  · rename_i h; subst h; simp
  · rename_i h; exact Memory.get_set_other m b h

theorem Memory.get_ne_none_of_mem {m : Memory} {a : Nat} (h : a ∈ m.map Prod.fst) : m.get a ≠ none := by
  induction m with
  | nil => simp at h
  | cons c m ih =>
    unfold Memory.get
    split
    · simp
    · rename_i hne
      simp only [List.map_cons, List.mem_cons] at h
      rcases h with h | h
      · exact absurd h.symm hne
      · exact ih h

theorem word_toNat_ne {a x : Word} (h : x ≠ a) : x.toNat ≠ a.toNat := fun e => h (BitVec.eq_of_toNat_eq e)

@[simp] theorem State.byteAt_storeByte (s : State) (a x : Word) (b : Byte) :
    (s.storeByte a b).byteAt x = if x = a then some b else s.byteAt x := by
  unfold State.byteAt State.storeByte
  by_cases h : x = a
  · subst h; simp
  · simp [Memory.get_set_other _ _ (word_toNat_ne h), h]

@[simp] theorem State.byteAt_poke (s : State) (a x : Word) (b : Byte) :
    (s.poke a b).byteAt x = if x = a then some b else s.byteAt x := by
  unfold State.byteAt State.poke
  by_cases h : x = a
  · subst h; simp
  · simp [Memory.get_set_other _ _ (word_toNat_ne h), h]

theorem word_succ_ne (a : Word) : a + 1 ≠ a := by
  intro h
  have := congrArg (· - a) h
  simp at this

/-- The bytes after a word store, big endian (20_memory.md R63, R64). -/
@[simp] theorem State.byteAt_storeWord (s : State) (a v x : Word) :
    (s.storeWord a v).byteAt x = if x = a + 1 then some (loByte v) else if x = a then some (hiByte v) else s.byteAt x := by
  simp [State.storeWord]

/-! ### Lists of addresses -/

@[simp] theorem mem_insertAddr (l : List Nat) (a x : Nat) : x ∈ insertAddr l a ↔ x = a ∨ x ∈ l := by
  induction l with
  | nil => simp [insertAddr]
  | cons b l ih =>
    unfold insertAddr
    split
    · simp
    · split
      · rename_i h; subst h; simp
      · simp [ih]; tauto

theorem insertAddr_sorted {l : List Nat} (h : l.Pairwise (· < ·)) (a : Nat) : (insertAddr l a).Pairwise (· < ·) := by
  induction l with
  | nil => simp [insertAddr]
  | cons b l ih =>
    rw [List.pairwise_cons] at h
    unfold insertAddr
    split
    · rename_i hab
      refine List.pairwise_cons.2 ⟨fun x hx => ?_, List.pairwise_cons.2 h⟩
      rcases List.mem_cons.1 hx with rfl | hx
      · exact hab
      · exact lt_trans hab (h.1 x hx)
    · split
      · exact List.pairwise_cons.2 h
      · refine List.pairwise_cons.2 ⟨fun x hx => ?_, ih h.2⟩
        rcases (mem_insertAddr l a x).1 hx with rfl | hx
        · omega
        · exact h.1 x hx

@[simp] theorem mem_eraseAddr (l : List Nat) (a x : Nat) : x ∈ eraseAddr l a ↔ x ∈ l ∧ x ≠ a := by simp [eraseAddr]

theorem eraseAddr_sorted {l : List Nat} (h : l.Pairwise (· < ·)) (a : Nat) : (eraseAddr l a).Pairwise (· < ·) :=
  h.filter _

/-- The written bytes after a byte store (20_memory.md R76). -/
@[simp] theorem State.mem_written_storeByte (s : State) (a : Word) (b : Byte) (x : Nat) :
    x ∈ (s.storeByte a b).written ↔ x = a.toNat ∨ x ∈ s.written := by simp

/-- The written bytes after a word store (20_memory.md R76). -/
@[simp] theorem State.mem_written_storeWord (s : State) (a v : Word) (x : Nat) :
    x ∈ (s.storeWord a v).written ↔ x = (a + 1).toNat ∨ x = a.toNat ∨ x ∈ s.written := by
  simp [State.storeWord]

/-! ### The canonical form -/

theorem Memory.map_fst_set (m : Memory) (a : Nat) (b : Byte) :
    (m.set a b).map Prod.fst = insertAddr (m.map Prod.fst) a := by
  induction m with
  | nil => rfl
  | cons c m ih =>
    unfold Memory.set
    simp only [List.map_cons, insertAddr]
    split
    · rfl
    · split
      · rename_i h; subst h; rfl
      · simp [ih]

/-- A write of a byte inside the address space keeps the canonical form. -/
theorem Memory.set_wf {m : Memory} (h : m.wf) {a : Nat} (ha : a < 65536) (b : Byte) : (m.set a b).wf := by
  constructor
  · rw [Memory.map_fst_set]; exact insertAddr_sorted h.1 a
  · intro x hx
    rw [Memory.map_fst_set, mem_insertAddr] at hx
    rcases hx with rfl | hx
    · exact ha
    · exact h.2 x hx

theorem State.storeByte_wf {s : State} (h : s.mem.wf) (a : Word) (b : Byte) : (s.storeByte a b).mem.wf :=
  Memory.set_wf h a.isLt b

theorem State.storeWord_wf {s : State} (h : s.mem.wf) (a v : Word) : (s.storeWord a v).mem.wf :=
  State.storeByte_wf (State.storeByte_wf h a _) _ _

theorem State.poke_wf {s : State} (h : s.mem.wf) (a : Word) (b : Byte) : (s.poke a b).mem.wf :=
  Memory.set_wf h a.isLt b

theorem State.load_wf {s : State} (h : s.mem.wf) (a : Word) (bs : List Byte) : (s.load a bs).mem.wf := by
  induction bs generalizing s a with
  | nil => exact h
  | cons b bs ih => exact ih (State.poke_wf h a b) (a + 1)

/-- The memory after reset is canonical. -/
theorem State.reset_mem_wf : State.reset.mem.wf := by decide

/-- Equal canonical memories are those that read the same: the form has one list for each content. -/
theorem Memory.ext_get {m n : Memory} (hm : m.wf) (hn : n.wf) (h : ∀ a, m.get a = n.get a) : m = n := by
  have none_of_lt : ∀ (l : Memory) (a : Nat), (∀ x ∈ l.map Prod.fst, a < x) → l.get a = none := by
    intro l a hl
    induction l with
    | nil => rfl
    | cons c l ih =>
      have hc := hl c.1 (by simp)
      have hne : c.1 ≠ a := by omega
      simp only [Memory.get, hne, if_false]
      exact ih fun x hx => hl x (by simpa using Or.inr (by simpa using hx))
  induction m generalizing n with
  | nil =>
    cases n with
    | nil => rfl
    | cons d n => have := h d.1; simp [Memory.get] at this
  | cons c m ih =>
    cases n with
    | nil => have := h c.1; simp [Memory.get] at this
    | cons d n =>
      have hm' := List.pairwise_cons.1 (by simpa using hm.1 : (c.1 :: m.map Prod.fst).Pairwise (· < ·))
      have hn' := List.pairwise_cons.1 (by simpa using hn.1 : (d.1 :: n.map Prod.fst).Pairwise (· < ·))
      have hcd : c.1 = d.1 := by
        rcases lt_trichotomy c.1 d.1 with hlt | heq | hgt
        · have := h c.1
          have e : Memory.get (d :: n) c.1 = none := none_of_lt _ _ (by
            intro x hx
            rcases List.mem_cons.1 (by simpa using hx : x ∈ d.1 :: n.map Prod.fst) with rfl | hx
            · exact hlt
            · exact lt_trans hlt (hn'.1 x hx))
          rw [e] at this; simp [Memory.get] at this
        · exact heq
        · have := h d.1
          have e : Memory.get (c :: m) d.1 = none := none_of_lt _ _ (by
            intro x hx
            rcases List.mem_cons.1 (by simpa using hx : x ∈ c.1 :: m.map Prod.fst) with rfl | hx
            · exact hgt
            · exact lt_trans hgt (hm'.1 x hx))
          rw [e] at this; simp [Memory.get] at this
      have hv : c.2 = d.2 := by
        have := h c.1
        simpa [Memory.get, hcd] using this
      have hcd' : c = d := Prod.ext hcd hv
      subst hcd'
      congr 1
      refine ih ⟨hm'.2, fun x hx => hm.2 x (by simpa using Or.inr (by simpa using hx))⟩
        ⟨hn'.2, fun x hx => hn.2 x (by simpa using Or.inr (by simpa using hx))⟩ fun a => ?_
      by_cases ha : c.1 = a
      · subst ha
        rw [none_of_lt m c.1 hm'.1, none_of_lt n c.1 hn'.1]
      · have := h a
        simpa [Memory.get, ha] using this

end Sys2Proof.Machine
end

