-- ==== Sys2Proof/Laws/Registers.lean ====
section
/-! SUPPORT. Laws/Registers.lean: what a read after a write of a register gives (10_state.md R20, R21), and R15 after the stack
operations.
-/
namespace Sys2Proof.Machine

/-- The literals below are in the form that simp gives them, `0#4` for `(0 : RegNum)`. -/
theorem regNum_eq_zero {r : RegNum} : r.toNat = 0 ↔ r = 0#4 := by
  constructor
  · intro h; exact BitVec.eq_of_toNat_eq (by simpa using h)
  · rintro rfl; rfl

@[simp] theorem State.reg_zero (s : State) : s.reg 0#4 = 0#16 := by simp [State.reg]

@[simp] theorem State.setReg_zero (s : State) (v : Word) : s.setReg 0#4 v = s := by simp [State.setReg]

theorem State.reg_setReg (s : State) (r q : RegNum) (v : Word) :
    (s.setReg r v).reg q = if q = r ∧ r ≠ 0#4 then v else s.reg q := by
  unfold State.setReg State.reg
  by_cases hr : r.toNat = 0
  · have : r = 0#4 := regNum_eq_zero.1 hr
    simp [this]
  · have hr0 : r ≠ 0#4 := fun h => hr (regNum_eq_zero.2 h)
    by_cases hq : q.toNat = 0
    · have : q ≠ r := fun h => hr (h ▸ hq)
      simp [hq, this]
    · by_cases hqr : q = r
      · subst hqr; simp [hr, hr0]
      · have hne : r.toNat - 1 ≠ q.toNat - 1 := by
          intro h; apply hqr; apply BitVec.eq_of_toNat_eq; omega
        simp [hr, hq, hqr, Vector.getElem_set_ne, hne]

theorem State.reg_setReg_self (s : State) {r : RegNum} (h : r ≠ 0#4) (v : Word) : (s.setReg r v).reg r = v := by
  rw [State.reg_setReg, if_pos ⟨rfl, h⟩]

theorem State.reg_setReg_ne (s : State) {r q : RegNum} (h : q ≠ r) (v : Word) : (s.setReg r v).reg q = s.reg q := by
  rw [State.reg_setReg, if_neg fun e => h e.1]

/-- The destination after a write, R0 included. -/
theorem State.reg_setReg_dest (s : State) (r : RegNum) (v : Word) :
    (s.setReg r v).reg r = if r = 0#4 then 0#16 else v := by
  by_cases h : r = 0#4
  · subst h; simp
  · rw [State.reg_setReg_self s h, if_neg h]

@[simp] theorem State.reg_decSp (s : State) (q : RegNum) :
    s.decSp.reg q = if q = 15#4 then s.reg 15#4 - 2#16 else s.reg q := by
  simp [State.decSp, State.reg_setReg]

@[simp] theorem State.reg_incSp (s : State) (q : RegNum) :
    s.incSp.reg q = if q = 15#4 then s.reg 15#4 + 2#16 else s.reg q := by
  simp [State.incSp, State.reg_setReg]

/-- Two states with the same registers read the same. -/
theorem State.reg_congr {s t : State} (h : s.regs = t.regs) (q : RegNum) : s.reg q = t.reg q := by
  simp [State.reg, h]

/-- A write of a register replaces the register file only. -/
theorem State.setReg_eq (s : State) (r : RegNum) (v : Word) : s.setReg r v = { s with regs := (s.setReg r v).regs } := by
  unfold State.setReg; split <;> rfl

end Sys2Proof.Machine
end

