-- ==== Sys2Proof/Laws/Ops.lean ====
section
/-! SUPPORT. Laws/Ops.lean: for each shared operation of Machine/Ops.lean what it can do, on any platform (00_scope.md R6), so that
no later proof unfolds it.
-/
namespace Sys2Proof.Machine

@[simp] theorem andThen_next {α β : Type} (a : α) (f : α → Result β) : andThen (.next a) f = f a := rfl
@[simp] theorem andThen_fault {α β : Type} (r : Fault) (f : α → Result β) : andThen (.fault r) f = .fault r := rfl
@[simp] theorem andThen_refused {α β : Type} (r : Refusal) (f : α → Result β) : andThen (.refused r) f = .refused r := rfl

theorem andThen_eq_next {α β : Type} {x : Result α} {f : α → Result β} {b : β} :
    andThen x f = .next b ↔ ∃ a, x = .next a ∧ f a = .next b := by
  cases x <;> simp [andThen]

/-! ### The platform's map -/

/-- The two halfwords of a long instruction are misaligned together (20_memory.md R66). -/
theorem misaligned_add_two (s : State) (a : Word) : s.misaligned (a + 2) = s.misaligned a := by
  have h : (a + 2#16).getLsbD 0 = a.getLsbD 0 := by
    rw [BitVec.getLsbD_add (by decide)]; simp [BitVec.carry, Nat.mod_one]
  simp only [State.misaligned]
  exact congrArg _ h

/-- Under the defaults every address is RAM and no access is refused for its alignment (00_scope.md R6). -/
theorem plainMemory_of_specDefaults {s : State} (h : s.params = Config.specDefaults) : s.plainMemory := by
  refine ⟨by rw [h]; rfl, fun a => ?_⟩
  have ha := a.isLt
  simp [State.kindAt, h, Config.specDefaults, kindIn, ha]

theorem takesWord_of_plainMemory {s : State} (h : s.plainMemory) (a : Word) : s.takesWord a :=
  ⟨by simp [State.misaligned, h.1], h.2 a, h.2 (a + 1)⟩

/-- Where the map has RAM everywhere a byte read stops only for want of the byte's value. -/
theorem byteStop_of_plainMemory {α : Type} {s : State} {a : Word} {x : Result α} (hp : s.plainMemory)
    (h : s.ByteStop a x) : s.byteAt a = none ∧ x = .fault (.unwrittenMemory a) := by
  rcases h with ⟨_, p, e⟩ | ⟨p, _⟩ | ⟨p, _⟩
  · exact ⟨p, e⟩
  · rw [hp.2] at p; cases p
  · rw [hp.2] at p; cases p

/-! ### Reads -/

/-- A load from RAM gives the byte that stands there. -/
theorem byteRead_ram {s : State} {a : Word} (h : s.kindAt a = some .ram) : s.byteRead a = s.byteAt a := by
  simp [State.byteRead, State.readable, h]

/-- Where the map has RAM everywhere a word read stops only at the first of its bytes without a value. -/
theorem wordStop_of_plainMemory {α : Type} {s : State} {a : Word} {x : Result α} (hp : s.plainMemory)
    (h : s.WordStop a x) :
    (s.byteAt a = none ∧ x = .fault (.unwrittenMemory a)) ∨
    (s.byteAt a ≠ none ∧ s.byteAt (a + 1) = none ∧ x = .fault (.unwrittenMemory (a + 1))) := by
  rcases h with ⟨m, _⟩ | ⟨_, h | ⟨r, h⟩⟩
  · simp [State.misaligned, hp.1] at m
  · exact .inl (byteStop_of_plainMemory hp h)
  · rw [byteRead_ram (hp.2 a)] at r
    exact .inr ⟨Option.isSome_iff_ne_none.1 r, byteStop_of_plainMemory hp h⟩

@[simp] theorem storedByte_eq_next {s : State} {a : Word} {b : Byte} :
    storedByte s a = .next b ↔ s.byteAt a = some b := by
  cases h : s.byteAt a <;> simp [storedByte, h]

theorem readByte_eq_next {s : State} {a : Word} {b : Byte} : readByte s a = .next b ↔ s.byteRead a = some b := by
  unfold readByte State.byteRead State.readable
  split <;> rename_i h <;> simp [h]

/-- A byte read that gives no value stops at its address, for a reason that holds there. -/
theorem readByte_stop {s : State} {a : Word} (h : s.byteRead a = none) : s.ByteStop a (readByte s a) := by
  unfold State.byteRead at h
  unfold readByte
  split <;> rename_i k
  case h_1 | h_2 =>
    have hr : s.readable a = true := by simp [State.readable, k]
    rw [if_pos hr] at h
    exact .inl ⟨hr, h, by simp [storedByte, h]⟩
  case h_3 => exact .inr (.inl ⟨k, rfl⟩)
  case h_4 => exact .inr (.inr ⟨k, rfl⟩)

/-- A computation stops where its first part does. -/
theorem byteStop_andThen {α β : Type} {s : State} {a : Word} {x : Result α} {f : α → Result β} (h : s.ByteStop a x) :
    s.ByteStop a (andThen x f) := by
  rcases h with ⟨p, q, rfl⟩ | ⟨p, rfl⟩ | ⟨p, rfl⟩
  · exact .inl ⟨p, q, rfl⟩
  · exact .inr (.inl ⟨p, rfl⟩)
  · exact .inr (.inr ⟨p, rfl⟩)

theorem wordStop_andThen {α β : Type} {s : State} {a : Word} {x : Result α} {f : α → Result β} (h : s.WordStop a x) :
    s.WordStop a (andThen x f) := by
  rcases h with ⟨m, rfl⟩ | ⟨m, h | ⟨k, h⟩⟩
  · exact .inl ⟨m, rfl⟩
  · exact .inr ⟨m, .inl (byteStop_andThen h)⟩
  · exact .inr ⟨m, .inr ⟨k, byteStop_andThen h⟩⟩

theorem readWord_eq_next {s : State} {a v : Word} : readWord s a = .next v ↔ s.wordAt a = some v := by
  unfold readWord State.wordAt
  split
  · simp
  · simp only [andThen_eq_next, readByte_eq_next]
    cases s.byteRead a <;> cases s.byteRead (a + 1) <;> simp [halfword]

/-- A word read that gives no value stops at the first of its bytes that gives none, or for its alignment. -/
theorem readWord_stop {s : State} {a : Word} (h : s.wordAt a = none) : s.WordStop a (readWord s a) := by
  unfold readWord
  by_cases m : s.misaligned a = true
  · rw [if_pos m]; exact .inl ⟨m, rfl⟩
  · have m' : s.misaligned a = false := by simpa using m
    rw [if_neg m]
    cases hi : s.byteRead a with
    | none => exact .inr ⟨m', .inl (byteStop_andThen (readByte_stop hi))⟩
    | some b =>
      cases lo : s.byteRead (a + 1) with
      | none =>
        rw [readByte_eq_next.2 hi, andThen_next]
        exact .inr ⟨m', .inr ⟨by simp [hi], byteStop_andThen (readByte_stop lo)⟩⟩
      | some c => rw [State.wordAt, if_neg m, hi, lo] at h; cases h

theorem stackTop_eq_next {s : State} {v : Word} : stackTop s = .next v ↔ s.wordAt (s.reg 15) = some v :=
  readWord_eq_next

/-! ### Writes -/

/-- All that a byte write can do: in RAM the byte is stored, in ROM nothing is, elsewhere it stops. -/
theorem putByte_cases (s : State) (a : Word) (b : Byte) :
    (s.kindAt a = some .ram ∧ putByte s a b = .next (s.storeByte a b)) ∨
    (s.kindAt a = some .rom ∧ putByte s a b = .next s) ∨ s.NoMemoryStop a (putByte s a b) := by
  unfold putByte
  split <;> rename_i k
  · exact .inl ⟨k, rfl⟩
  · exact .inr (.inl ⟨k, rfl⟩)
  · exact .inr (.inr (.inl ⟨k, rfl⟩))
  · exact .inr (.inr (.inr ⟨k, rfl⟩))

theorem putByte_ram {s : State} {a : Word} (h : s.kindAt a = some .ram) (b : Byte) :
    putByte s a b = .next (s.storeByte a b) := by simp [putByte, h]

theorem putByte_rom {s : State} {a : Word} (h : s.kindAt a = some .rom) (b : Byte) : putByte s a b = .next s := by
  simp [putByte, h]

theorem writeByte_ram {s : State} {a : Word} (h : s.kindAt a = some .ram) (v : Word) :
    writeByte s a v = .next (s.storeByte a (loByte v)) := putByte_ram h _

theorem noMemoryStop_not_next {α : Type} {s : State} {a : Word} {x : Result α} {t : α} (h : s.NoMemoryStop a x) :
    x ≠ .next t := by
  rcases h with ⟨_, rfl⟩ | ⟨_, rfl⟩ <;> simp

theorem putByte_eq_next {s t : State} {a : Word} {b : Byte} (h : putByte s a b = .next t) :
    (s.kindAt a = some .ram ∧ t = s.storeByte a b) ∨ (s.kindAt a = some .rom ∧ t = s) := by
  rcases putByte_cases s a b with ⟨k, e⟩ | ⟨k, e⟩ | e
  · exact .inl ⟨k, by simpa using (h.symm.trans e)⟩
  · exact .inr ⟨k, by simpa using (h.symm.trans e)⟩
  · exact absurd h (noMemoryStop_not_next e)

theorem writeWord_ram {s : State} {a : Word} (h : s.takesWord a) (v : Word) :
    writeWord s a v = .next (s.storeWord a v) := by
  obtain ⟨m, hi, lo⟩ := h
  have lo' : (s.storeByte a (hiByte v)).kindAt (a + 1) = some .ram := by simpa using lo
  rw [writeWord, if_neg (by simp [m]), putByte_ram hi, andThen_next, putByte_ram lo']; rfl

/-- All that a word write which goes on can have done: each of its two bytes is stored where it goes to RAM. -/
theorem writeWord_eq_next {s t : State} {a v : Word} (h : writeWord s a v = .next t) :
    (s.kindAt a = some .ram ∧ s.kindAt (a + 1) = some .ram ∧ t = s.storeWord a v) ∨
    (s.kindAt a = some .ram ∧ t = s.storeByte a (hiByte v)) ∨
    (s.kindAt (a + 1) = some .ram ∧ t = s.storeByte (a + 1) (loByte v)) ∨ t = s := by
  unfold writeWord at h
  split at h
  · cases h
  · obtain ⟨u, hu, ht⟩ := andThen_eq_next.1 h
    rcases putByte_eq_next hu with ⟨k, rfl⟩ | ⟨k, rfl⟩ <;> rcases putByte_eq_next ht with ⟨l, rfl⟩ | ⟨l, rfl⟩
    · exact .inl ⟨k, by simpa using l, rfl⟩
    · exact .inr (.inl ⟨k, rfl⟩)
    · exact .inr (.inr (.inl ⟨l, rfl⟩))
    · exact .inr (.inr (.inr rfl))

/-! ### The stack and the interrupt -/

/-- The state after a push of `v` in RAM. -/
abbrev State.pushed (s : State) (v : Word) : State := s.decSp.storeWord (s.reg 15 - 2) v

theorem takesWord_decSp {s : State} {a : Word} : s.decSp.takesWord a ↔ s.takesWord a := by simp [State.takesWord]

theorem push_eq {s : State} (h : s.takesWord (s.reg 15 - 2)) (v : Word) : push s v = .next (s.pushed v) :=
  writeWord_ram (takesWord_decSp.2 h) v

theorem takeInterrupt_eq {s : State} (h : s.takesWord (s.reg 15 - 2)) (v : Word) :
    takeInterrupt v s = .next (((s.pushed s.pc).withIF false).withPc v) := by
  rw [takeInterrupt, push_eq h, andThen_next]

theorem returnFromInterrupt_eq_next {s t : State} :
    returnFromInterrupt s = .next t ↔ ∃ v, stackTop s = .next v ∧ t = (s.withPc v).incSp.withIF true := by
  simp only [returnFromInterrupt, andThen_eq_next]
  constructor
  · rintro ⟨v, h, e⟩; exact ⟨v, h, by simpa using e.symm⟩
  · rintro ⟨v, h, rfl⟩; exact ⟨v, h, rfl⟩

/-- The bits of a halfword. -/
theorem getLsbD_halfword (a b : Byte) (i : Nat) :
    (halfword a b).getLsbD i = if i < 8 then b.getLsbD i else a.getLsbD (i - 8) := by
  have h : (a ++ b).getLsbD i = if i < 8 then b.getLsbD i else a.getLsbD (i - 8) := BitVec.getLsbD_append
  exact h

/-- The halves of a word, put together, are the word (20_memory.md R64). -/
@[simp] theorem halfword_hiByte_loByte (v : Word) : halfword (hiByte v) (loByte v) = v := by
  apply BitVec.eq_of_getLsbD_eq
  intro i hi
  rw [getLsbD_halfword]
  split
  · rename_i h; simp [loByte, h]
  · simp only [hiByte, BitVec.getLsbD_extractLsb']
    have h1 : i - 8 < 8 := by omega
    have h2 : 8 + (i - 8) = i := by omega
    simp [h1, h2]

@[simp] theorem hiByte_halfword (a b : Byte) : hiByte (halfword a b) = a := by
  apply BitVec.eq_of_getLsbD_eq
  intro i hi
  simp [hiByte, getLsbD_halfword, hi]

@[simp] theorem loByte_halfword (a b : Byte) : loByte (halfword a b) = b := by
  apply BitVec.eq_of_getLsbD_eq
  intro i hi
  simp [loByte, getLsbD_halfword, hi]

end Sys2Proof.Machine
end

