-- ==== Sys2Proof/Laws/Alu.lean ====
section
/-! SUPPORT. Laws/Alu.lean: what an ALU instruction does to each field of the state, whatever its operation and form; when each
operand form answers a next state.
-/
namespace Sys2Proof.Machine

section
variable (op : AluOp) (rd : RegNum) (a b len : Word) (s : State)

@[simp] theorem alu_pc : (alu op rd a b len s).pc = s.pc + len := by
  simp only [alu, aluFinish]; split <;> simp

@[simp] theorem alu_fr : (alu op rd a b len s).fr = (aluOut s.params.shiftCount op a b s.fr s.freeCount).flags := by
  simp [alu, aluFinish]

@[simp] theorem alu_params : (alu op rd a b len s).params = s.params := by simp only [alu, aluFinish]; split <;> simp
@[simp] theorem alu_hr : (alu op rd a b len s).hr = s.hr := by simp only [alu, aluFinish]; split <;> simp
@[simp] theorem alu_mem : (alu op rd a b len s).mem = s.mem := by simp only [alu, aluFinish]; split <;> simp
@[simp] theorem alu_written : (alu op rd a b len s).written = s.written := by simp only [alu, aluFinish]; split <;> simp
@[simp] theorem alu_irq : (alu op rd a b len s).irq = s.irq := by simp only [alu, aluFinish]; split <;> simp
@[simp] theorem alu_icacheCleared : (alu op rd a b len s).icacheCleared = s.icacheCleared := by
  simp only [alu, aluFinish]; split <;> simp
@[simp] theorem alu_dcacheCleared : (alu op rd a b len s).dcacheCleared = s.dcacheCleared := by
  simp only [alu, aluFinish]; split <;> simp
@[simp] theorem alu_freeCount :
    (alu op rd a b len s).freeCount = s.freeCount + (aluOut s.params.shiftCount op a b s.fr s.freeCount).draws := by
  simp only [alu, aluFinish]; split <;> simp
@[simp] theorem byteAt_alu (x : Word) : (alu op rd a b len s).byteAt x = s.byteAt x := by simp [State.byteAt]

/-- The destination gets the value; CMP writes no register; R0 reads zero. -/
theorem reg_alu (q : RegNum) :
    (alu op rd a b len s).reg q =
      if q = rd ∧ rd ≠ 0#4 ∧ op.writesRegister = true then (aluOut s.params.shiftCount op a b s.fr s.freeCount).value else s.reg q := by
  simp only [alu, aluFinish]
  by_cases h : op.writesRegister = true
  · simp [h, State.reg_setReg]
  · simp [h]

/-- IF is never changed by an ALU operation (10_state.md R34). -/
@[simp] theorem aluOut_IF (k : Config.ShiftCount) (f : Flags) (n : Nat) : (aluOut k op a b f n).flags.IF = f.IF := by
  cases op <;> rfl

/-- MOV writes no flag (40_move_store.md R201). -/
@[simp] theorem aluOut_mov_flags (k : Config.ShiftCount) (f : Flags) (n : Nat) : (aluOut k .mov a b f n).flags = f := rfl

/-- Every other operation sets AF from operand B (10_state.md R29). -/
theorem aluOut_AF (k : Config.ShiftCount) (f : Flags) (n : Nat) (h : op ≠ .mov) : (aluOut k op a b f n).flags.AF = b.msb := by
  cases op <;> first | rfl | exact absurd rfl h

end

/-! ### Operands from memory -/

theorem readUnsignedByte_eq_next {s : State} {a v : Word} :
    readUnsignedByte s a = .next v ↔ ∃ b, s.byteRead a = some b ∧ v = b.setWidth 16 := by
  simp only [readUnsignedByte, andThen_eq_next, readByte_eq_next]
  constructor
  · rintro ⟨b, h, e⟩; exact ⟨b, h, by simpa using e.symm⟩
  · rintro ⟨b, h, rfl⟩; exact ⟨b, h, rfl⟩

theorem readSignedByte_eq_next {s : State} {a v : Word} :
    readSignedByte s a = .next v ↔ ∃ b, s.byteRead a = some b ∧ v = b.signExtend 16 := by
  simp only [readSignedByte, andThen_eq_next, readByte_eq_next]
  constructor
  · rintro ⟨b, h, e⟩; exact ⟨b, h, by simpa using e.symm⟩
  · rintro ⟨b, h, rfl⟩; exact ⟨b, h, rfl⟩

/-! ### The forms: an instruction over an operand from memory answers a next state exactly where the operand has a value -/

/-- The end of every form with an operand read by `x`. -/
theorem aluRead_eq_next {op : AluOp} {rd : RegNum} {a len : Word} {s t : State} {x : Result Word} :
    (andThen x fun b => .next (alu op rd a b len s)) = (.next t : Result State) ↔
      ∃ b, x = .next b ∧ t = alu op rd a b len s := by
  rw [andThen_eq_next]
  constructor
  · rintro ⟨b, h, e⟩; exact ⟨b, h, by simpa using e.symm⟩
  · rintro ⟨b, h, rfl⟩; exact ⟨b, h, rfl⟩

theorem aluByteInd_eq_next {op : AluOp} {rA rB : RegNum} {s t : State} :
    aluByteInd op rA rB s = .next t ↔
      ∃ b, readUnsignedByte s (s.reg rB) = .next b ∧ t = alu op rA (s.reg rA) b 2 s := aluRead_eq_next

theorem aluSByteInd_eq_next {op : AluOp} {rA rB : RegNum} {s t : State} :
    aluSByteInd op rA rB s = .next t ↔
      ∃ b, readSignedByte s (s.reg rB) = .next b ∧ t = alu op rA (s.reg rA) b 2 s := aluRead_eq_next

theorem aluWordInd_eq_next {op : AluOp} {rA rB : RegNum} {s t : State} :
    aluWordInd op rA rB s = .next t ↔
      ∃ b, readWord s (s.reg rB) = .next b ∧ t = alu op rA (s.reg rA) b 2 s := aluRead_eq_next

theorem aluByteBased_eq_next {op : AluOp} {rA rB : RegNum} {o : Word} {s t : State} :
    aluByteBased op rA rB o s = .next t ↔
      ∃ b, readUnsignedByte s (s.based rB o) = .next b ∧ t = alu op rA (s.reg rA) b 4 s := aluRead_eq_next

theorem aluSByteBased_eq_next {op : AluOp} {rA rB : RegNum} {o : Word} {s t : State} :
    aluSByteBased op rA rB o s = .next t ↔
      ∃ b, readSignedByte s (s.based rB o) = .next b ∧ t = alu op rA (s.reg rA) b 4 s := aluRead_eq_next

theorem aluWordBased_eq_next {op : AluOp} {rA rB : RegNum} {o : Word} {s t : State} :
    aluWordBased op rA rB o s = .next t ↔
      ∃ b, readWord s (s.based rB o) = .next b ∧ t = alu op rA (s.reg rA) b 4 s := aluRead_eq_next

end Sys2Proof.Machine
end

