-- ==== Sys2Proof/Laws/Decode.lean ====
section
/-! SUPPORT. Laws/Decode.lean: the nibbles of a halfword written from four nibbles, and back; the length bit.
-/
namespace Sys2Proof

/-- The bits of an opcode halfword written N0 N1 N2 N3 (30_encoding.md R101). -/
theorem getLsbD_ofNibbles (a b c d : Nibble) (i : Nat) :
    (ofNibbles a b c d).getLsbD i =
      if i < 4 then d.getLsbD i else if i < 8 then c.getLsbD (i - 4)
      else if i < 12 then b.getLsbD (i - 8) else a.getLsbD (i - 12) := by
  have h1 : (a ++ b ++ c ++ d).getLsbD i = if i < 4 then d.getLsbD i else (a ++ b ++ c).getLsbD (i - 4) :=
    BitVec.getLsbD_append
  have h2 : (a ++ b ++ c).getLsbD (i - 4) =
      if i - 4 < 4 then c.getLsbD (i - 4) else (a ++ b).getLsbD (i - 4 - 4) := BitVec.getLsbD_append
  have h3 : (a ++ b).getLsbD (i - 4 - 4) =
      if i - 4 - 4 < 4 then b.getLsbD (i - 4 - 4) else a.getLsbD (i - 4 - 4 - 4) := BitVec.getLsbD_append
  have h0 : (ofNibbles a b c d).getLsbD i = (a ++ b ++ c ++ d).getLsbD i := rfl
  rw [h0, h1, h2, h3]
  have e1 : i - 4 - 4 = i - 8 := by omega
  have e2 : i - 8 - 4 = i - 12 := by omega
  rw [e1, e2]
  by_cases p : i < 4
  · simp [p]
  · by_cases q : i < 8
    · have : i - 4 < 4 := by omega
      simp [p, q, this]
    · have q' : ¬ i - 4 < 4 := by omega
      by_cases r : i < 12
      · have : i - 8 < 4 := by omega
        simp [p, q, q', r, this]
      · have : ¬ i - 8 < 4 := by omega
        simp [p, q, q', r, this]

@[simp] theorem nibble0_ofNibbles (a b c d : Nibble) : nibble0 (ofNibbles a b c d) = a := by
  apply BitVec.eq_of_getLsbD_eq
  intro i hi
  simp only [nibble0, BitVec.getLsbD_extractLsb', hi, decide_true, Bool.true_and, getLsbD_ofNibbles]
  rw [if_neg (by omega), if_neg (by omega), if_neg (by omega)]
  congr 1; omega

@[simp] theorem nibble1_ofNibbles (a b c d : Nibble) : nibble1 (ofNibbles a b c d) = b := by
  apply BitVec.eq_of_getLsbD_eq
  intro i hi
  simp only [nibble1, BitVec.getLsbD_extractLsb', hi, decide_true, Bool.true_and, getLsbD_ofNibbles]
  rw [if_neg (by omega), if_neg (by omega), if_pos (by omega)]
  congr 1; omega

@[simp] theorem nibble2_ofNibbles (a b c d : Nibble) : nibble2 (ofNibbles a b c d) = c := by
  apply BitVec.eq_of_getLsbD_eq
  intro i hi
  simp only [nibble2, BitVec.getLsbD_extractLsb', hi, decide_true, Bool.true_and, getLsbD_ofNibbles]
  rw [if_neg (by omega), if_pos (by omega)]
  congr 1; omega

@[simp] theorem nibble3_ofNibbles (a b c d : Nibble) : nibble3 (ofNibbles a b c d) = d := by
  apply BitVec.eq_of_getLsbD_eq
  intro i hi
  simp only [nibble3, BitVec.getLsbD_extractLsb', hi, decide_true, Bool.true_and, getLsbD_ofNibbles]
  rw [if_pos (by omega)]
  congr 1; omega

/-- Every halfword is the one written from its four nibbles (30_encoding.md R101). -/
theorem ofNibbles_nibbles (w : Word) : ofNibbles (nibble0 w) (nibble1 w) (nibble2 w) (nibble3 w) = w := by
  apply BitVec.eq_of_getLsbD_eq
  intro i hi
  rw [getLsbD_ofNibbles]
  simp only [nibble0, nibble1, nibble2, nibble3, BitVec.getLsbD_extractLsb']
  split
  · rename_i h; simp [h]
  · split
    · have h1 : i - 4 < 4 := by omega
      have h2 : 4 + (i - 4) = i := by omega
      simp [h1, h2]
    · split
      · have h1 : i - 8 < 4 := by omega
        have h2 : 8 + (i - 8) = i := by omega
        simp [h1, h2]
      · have h1 : i - 12 < 4 := by omega
        have h2 : 12 + (i - 12) = i := by omega
        simp [h1, h2]

/-- The length bit is the top bit of N0 (30_encoding.md R102). -/
@[simp] theorem isLong_ofNibbles (a b c d : Nibble) : isLong (ofNibbles a b c d) = a.msb := by
  rw [isLong, getLsbD_ofNibbles, if_neg (by omega), if_neg (by omega), if_neg (by omega)]
  rfl

end Sys2Proof
end

