-- ==== Sys2Proof/Laws/Forms.lean ====
section
/-! SUPPORT. Laws/Forms.lean: the meaning of an ALU instruction in any of its forms is one application of `alu` to the operands
that Safety.lean writes from the spec.
-/
namespace Sys2Proof.Machine

/-- An operand form read by the model. -/
def AluForm.read (s : State) : AluForm → Result Word
  | .imm4 _ v => .next (imm4Value s.params.imm4Ext v)
  | .reg _ rB => .next (s.reg rB)
  | .xaf _ => .next s.fr.xaf
  | .byteInd _ rB => readUnsignedByte s (s.reg rB)
  | .sbyteInd _ rB => readSignedByte s (s.reg rB)
  | .wordInd _ rB => readWord s (s.reg rB)
  | .imm16 _ v => .next v
  | .regImm16 _ _ v => .next v
  | .byteBased _ rB o => readUnsignedByte s (s.based rB o)
  | .sbyteBased _ rB o => readSignedByte s (s.based rB o)
  | .wordBased _ rB o => readWord s (s.based rB o)

theorem exec_form {m : AluForm} {op : AluOp} {i : Instr} (h : m.instr op = some i) (s : State) :
    exec i s = andThen (m.read s) fun b => .next (alu op m.dest (m.first s) b m.length s) := by
  cases op <;> cases m <;> cases h <;> rfl

theorem read_of_second {m : AluForm} {s : State} {b : Word} (h : m.second s = some b) : m.read s = .next b := by
  cases m <;> simp only [AluForm.second, Option.some.injEq, Option.map_eq_some_iff] at h <;>
    simp only [AluForm.read]
  case imm4 => rw [← h]; rfl
  case reg => rw [h]
  case xaf => rw [← h]; rfl
  case byteInd => obtain ⟨x, hx, rfl⟩ := h; exact readUnsignedByte_eq_next.2 ⟨x, hx, rfl⟩
  case sbyteInd => obtain ⟨x, hx, rfl⟩ := h; exact readSignedByte_eq_next.2 ⟨x, hx, rfl⟩
  case wordInd => exact readWord_eq_next.2 h
  case imm16 => rw [h]
  case regImm16 => rw [h]
  case byteBased => obtain ⟨x, hx, rfl⟩ := h; exact readUnsignedByte_eq_next.2 ⟨x, hx, rfl⟩
  case sbyteBased => obtain ⟨x, hx, rfl⟩ := h; exact readSignedByte_eq_next.2 ⟨x, hx, rfl⟩
  case wordBased => exact readWord_eq_next.2 h

/-- An operand that memory does not give stops at its address, for a reason that holds there. -/
theorem read_stop {m : AluForm} {s : State} (h : m.second s = none) : m.OperandStop s (m.read s) := by
  cases m <;> simp only [AluForm.second, Option.map_eq_none_iff, reduceCtorEq] at h
  case byteInd | sbyteInd | byteBased | sbyteBased => exact byteStop_andThen (readByte_stop h)
  case wordInd | wordBased => exact readWord_stop h

/-- An instruction stops where the read of its operand does. -/
theorem operandStop_andThen {α β : Type} {m : AluForm} {s : State} {x : Result α} {f : α → Result β}
    (h : m.OperandStop s x) : m.OperandStop s (andThen x f) := by
  cases m <;> simp only [AluForm.OperandStop] at h ⊢
  case byteInd | sbyteInd | byteBased | sbyteBased => exact byteStop_andThen h
  case wordInd | wordBased => exact wordStop_andThen h

/-- An ALU instruction whose operand B has a value answers the next state of `alu` on its operands. -/
theorem exec_form_of_second {m : AluForm} {op : AluOp} {i : Instr} {s : State} {b : Word}
    (h : m.instr op = some i) (hb : m.second s = some b) :
    exec i s = .next (alu op m.dest (m.first s) b m.length s) := by
  rw [exec_form h, read_of_second hb]; rfl

/-- The frame of an ALU instruction with a destination. -/
theorem alu_frame (op : AluOp) (rd : RegNum) (a b len : Word) (s : State) : Frame [rd] [] s (alu op rd a b len s) where
  registers := by
    intro q hq
    have : q ≠ rd := by simpa using hq
    simp [reg_alu, this]
  bytes := by simp
  written := by simp
  icache := by simp
  dcache := by simp
  irq := by simp
  params := by simp

/-- The frame of CMP. -/
theorem alu_cmp_frame (rd : RegNum) (a b len : Word) (s : State) : Frame [] [] s (alu .cmp rd a b len s) where
  registers := by intro q _; simp [reg_alu, AluOp.writesRegister]
  bytes := by simp
  written := by simp
  icache := by simp
  dcache := by simp
  irq := by simp
  params := by simp

/-- The destination of every operation but CMP. -/
theorem reg_alu_dest {op : AluOp} (h : op ≠ .cmp) (rd : RegNum) (a b len : Word) (s : State) :
    (alu op rd a b len s).reg rd = if rd = 0#4 then 0#16 else (aluOut s.params.shiftCount op a b s.fr s.freeCount).value := by
  have hw : op.writesRegister = true := by cases op <;> first | rfl | exact absurd rfl h
  rw [reg_alu]
  by_cases h0 : rd = 0#4
  · subst h0; simp
  · simp [h0, hw]

end Sys2Proof.Machine
end

