-- ==== Sys2Proof/Laws/Stack.lean ====
section
/-! SUPPORT. Laws/Stack.lean: what a push leaves in memory and in R15, what it leaves alone, and what a pop then finds
(46_stack_flags.md R510); the frame of a store.
-/
namespace Sys2Proof.Machine

/-- A word stored in RAM is read back as a word (20_memory.md R73). -/
theorem wordAt_storeWord {s : State} {a : Word} (h : s.takesWord a) (v : Word) : (s.storeWord a v).wordAt a = some v := by
  have hi : (s.storeWord a v).byteRead a = some (hiByte v) := by
    rw [byteRead_ram (by simpa using h.2.1), State.byteAt_storeWord, if_neg (word_succ_ne a).symm, if_pos rfl]
  have lo : (s.storeWord a v).byteRead (a + 1) = some (loByte v) := by
    rw [byteRead_ram ((State.kindAt_storeWord s a v (a + 1)).trans h.2.2), State.byteAt_storeWord, if_pos rfl]
  rw [State.wordAt, State.misaligned_storeWord, if_neg (by simp [h.1]), hi, lo]
  exact congrArg some (halfword_hiByte_loByte v)

theorem reg_storeWord (s : State) (a v : Word) (q : RegNum) : (s.storeWord a v).reg q = s.reg q :=
  State.reg_congr (by simp) q

theorem hr0_storeWord (s : State) (a v : Word) : (s.storeWord a v).hr0 = s.hr0 := by simp [State.hr0]

theorem wordAt_pushed {s : State} (h : s.takesWord (s.reg 15 - 2)) (v : Word) :
    (s.pushed v).wordAt (s.reg 15 - 2) = some v := wordAt_storeWord (takesWord_decSp.2 h) v

theorem reg_pushed (s : State) (v : Word) (q : RegNum) :
    (s.pushed v).reg q = if q = 15#4 then s.reg 15#4 - 2#16 else s.reg q := by
  rw [State.pushed, reg_storeWord, State.reg_decSp]

/-- The frame of a word store. -/
theorem storeWord_frame (s : State) (a v : Word) : Frame [] [a, a + 1] s (s.storeWord a v) where
  registers := fun q _ => reg_storeWord s a v q
  bytes := by
    intro x hx
    simp only [List.mem_cons, List.not_mem_nil, or_false, not_or] at hx
    rw [State.byteAt_storeWord, if_neg hx.2, if_neg hx.1]
  written := by
    intro x
    simp only [State.mem_written_storeWord, List.mem_cons, List.not_mem_nil, or_false, ← BitVec.toNat_inj]
    tauto
  icache := by simp
  dcache := by simp
  irq := by simp
  params := by simp

/-- The frame of a byte store. -/
theorem storeByte_frame (s : State) (a : Word) (b : Byte) : Frame [] [a] s (s.storeByte a b) where
  registers := fun _ _ => rfl
  bytes := by
    intro x hx
    rw [State.byteAt_storeByte, if_neg (by simpa using hx)]
  written := by
    intro x
    simp only [State.mem_written_storeByte, List.mem_cons, List.not_mem_nil, or_false, ← BitVec.toNat_inj]
    tauto
  icache := rfl
  dcache := rfl
  irq := rfl
  params := rfl

/-- What stays unchanged does so one part after another. -/
theorem Frame.trans {qs rs : List RegNum} {as bs : List Word} {s t u : State} (f : Frame qs as s t) (g : Frame rs bs t u) :
    Frame (qs ++ rs) (as ++ bs) s u where
  registers := fun q h => by
    rw [List.mem_append, not_or] at h
    exact (g.registers q h.2).trans (f.registers q h.1)
  bytes := fun a h => by
    rw [List.mem_append, not_or] at h
    exact (g.bytes a h.2).trans (f.bytes a h.1)
  written := fun a => by rw [g.written, f.written, List.mem_append]; tauto
  icache := g.icache.trans f.icache
  dcache := g.dcache.trans f.dcache
  irq := g.irq.trans f.irq
  params := g.params.trans f.params

theorem Frame.refl (rs : List RegNum) (s : State) : Frame rs [] s s := ⟨by simp, by simp, by simp, rfl, rfl, rfl, rfl⟩

/-- A change of pc and flags leaves a frame as it is. -/
theorem Frame.withPcFr {rs : List RegNum} {as : List Word} {s t : State} (f : Frame rs as s t) (x : Word) (r : Flags) :
    Frame rs as s { t with pc := x, fr := r } := ⟨f.1, f.2, f.3, f.4, f.5, f.6, f.7⟩

theorem decSp_frame (s : State) : Frame [15] [] s s.decSp where
  registers := fun q h => by rw [State.reg_decSp, if_neg (by simpa using h)]
  bytes := by simp
  written := by simp
  icache := by simp
  dcache := by simp
  irq := by simp
  params := by simp

/-! ### Writes on any map (00_scope.md R6) -/

/-- Of the addresses of a write, those whose bytes change: the ones in RAM. -/
abbrev State.inRam (s : State) (as : List Word) : List Word := as.filter fun x => s.kindAt x == some .ram

/-- All that a byte write does where the map has RAM or ROM: the byte is stored if it is RAM, and nothing else changes. -/
theorem putByte_of_readable {s : State} {a : Word} (h : s.readable a = true) (b : Byte) :
    ∃ t, putByte s a b = .next t ∧ (s.kindAt a = some .ram → t.byteAt a = some b) ∧ t.pc = s.pc ∧ t.fr = s.fr ∧
      t.hr = s.hr ∧ Frame [] (s.inRam [a]) s t := by
  have h' : s.kindAt a = some .ram ∨ s.kindAt a = some .rom := by simpa [State.readable] using h
  rcases h' with k | k
  · refine ⟨_, putByte_ram k b, fun _ => by rw [State.byteAt_storeByte, if_pos rfl], rfl, rfl, rfl, ?_⟩
    have e : s.inRam [a] = [a] := by simp [State.inRam, k]
    rw [e]
    exact storeByte_frame s a b
  · refine ⟨_, putByte_rom k b, fun r => absurd (k.symm.trans r) (by decide), rfl, rfl, rfl, ?_⟩
    have e : s.inRam [a] = [] := by simp [State.inRam, k]
    rw [e]
    exact Frame.refl [] s

/-- The map is one of the parameters, which a frame leaves. -/
theorem kindAt_of_frame {rs : List RegNum} {as : List Word} {s t : State} (f : Frame rs as s t) (x : Word) :
    t.kindAt x = s.kindAt x := by rw [State.kindAt, f.params]; rfl

theorem readable_of_frame {rs : List RegNum} {as : List Word} {s t : State} (f : Frame rs as s t) (x : Word) :
    t.readable x = s.readable x := by simp [State.readable, kindAt_of_frame f]

/-- All that a word write does where the map has RAM or ROM at both addresses: each byte is stored if its own address is RAM,
and nothing else changes. -/
theorem writeWord_of_readable {s : State} {a : Word} (m : s.misaligned a = false) (h : s.readable a = true)
    (l : s.readable (a + 1) = true) (v : Word) :
    ∃ t, writeWord s a v = .next t ∧ (s.kindAt a = some .ram → t.byteAt a = some (hiByte v)) ∧
      (s.kindAt (a + 1) = some .ram → t.byteAt (a + 1) = some (loByte v)) ∧ t.pc = s.pc ∧ t.fr = s.fr ∧ t.hr = s.hr ∧
      Frame [] (s.inRam [a, a + 1]) s t := by
  obtain ⟨u, hu, ub, up, uf, uh, fu⟩ := putByte_of_readable h (hiByte v)
  obtain ⟨t, ht, tb, tp, tf, th, ft⟩ := putByte_of_readable ((readable_of_frame fu _).trans l) (loByte v)
  have e : u.inRam [a + 1] = s.inRam [a + 1] := by simp only [State.inRam, kindAt_of_frame fu]
  rw [e] at ft
  have e : writeWord s a v = .next t := by rw [writeWord, if_neg (by simp [m]), hu, andThen_next, ht]
  refine ⟨t, e, fun k => ?_,
    fun k => tb ((kindAt_of_frame fu _).trans k), tp.trans up, tf.trans uf, th.trans uh, ?_⟩
  · refine (ft.bytes a fun n => word_succ_ne a ?_).trans (ub k)
    have : a = a + 1 := by simpa using (List.mem_filter.1 n).1
    exact this.symm
  · have := fu.trans ft
    rwa [State.inRam, State.inRam, ← List.filter_append] at this

/-- A write at a device, or outside the map, is refused whatever else the state holds. -/
theorem putByte_refused {s t : State} (e : ∀ x, t.kindAt x = s.kindAt x) (a : Word) (b : Byte) :
    (s.kindAt a = some .device → putByte t a b = .refused (.deviceAccess a)) ∧
    (s.kindAt a = none → putByte t a b = .refused (.outsideMemoryMap a)) := by
  constructor <;> intro h <;> simp [putByte, e, h]

/-- Where a word write stops: at the first of its two bytes that has no memory, unless its alignment is refused before
(notes/assumptions/34.md). -/
theorem writeWord_refused (s : State) (a v : Word) :
    (s.misaligned a = true → writeWord s a v = .refused (.misalignedAccess a)) ∧
    (s.misaligned a = false →
      (s.kindAt a = some .device → writeWord s a v = .refused (.deviceAccess a)) ∧
      (s.kindAt a = none → writeWord s a v = .refused (.outsideMemoryMap a)) ∧
      (s.readable a = true →
        (s.kindAt (a + 1) = some .device → writeWord s a v = .refused (.deviceAccess (a + 1))) ∧
        (s.kindAt (a + 1) = none → writeWord s a v = .refused (.outsideMemoryMap (a + 1))))) := by
  refine ⟨fun m => by simp [writeWord, m], fun m => ?_⟩
  have p := putByte_refused (s := s) (fun _ => rfl) a (hiByte v)
  rw [writeWord, if_neg (by simp [m])]
  refine ⟨fun k => by rw [p.1 k]; rfl, fun k => by rw [p.2 k]; rfl, fun h => ?_⟩
  obtain ⟨u, hu, _, _, _, _, fu⟩ := putByte_of_readable h (hiByte v)
  rw [hu, andThen_next]
  exact putByte_refused (kindAt_of_frame fu) (a + 1) (loByte v)

/-- The frame of a push: R15 and the two bytes below it. -/
theorem pushed_frame (s : State) (v : Word) : Frame [15] [s.reg 15 - 2, s.reg 15 - 2 + 1] s (s.pushed v) where
  registers := by
    intro q hq
    rw [reg_pushed, if_neg (by simpa using hq)]
  bytes := fun x hx => by
    rw [(storeWord_frame s.decSp (s.reg 15 - 2) v).bytes x hx]; simp
  written := fun x => by
    rw [(storeWord_frame s.decSp (s.reg 15 - 2) v).written x]; simp
  icache := by simp
  dcache := by simp
  irq := by simp
  params := by simp

theorem stackTop_of_wordAt {s : State} {v : Word} (h : s.wordAt (s.reg 15) = some v) : stackTop s = .next v :=
  stackTop_eq_next.2 h

/-- A pop right after a push finds the word pushed (46_stack_flags.md R510). -/
theorem stackTop_pushed {s : State} (h : s.takesWord (s.reg 15 - 2)) (v : Word) :
    stackTop (s.pushed v) = .next v := by
  apply stackTop_of_wordAt
  have : (s.pushed v).reg 15 = s.reg 15 - 2 := by rw [reg_pushed]; rfl
  rw [this]; exact wordAt_pushed h v

end Sys2Proof.Machine
end

