-- ==== Sys2Proof/Laws/Exec.lean ====
section
/-! SUPPORT. Laws/Exec.lean: once and for all, what a shared meaning that answers a next state can have done to the parts of the
state outside the registers.
-/
namespace Sys2Proof.Machine

/-- The parts of the state that no register instruction touches. -/
structure State.SameStore (s t : State) : Prop where
  params : t.params = s.params
  mem : t.mem = s.mem
  written : t.written = s.written
  icache : t.icacheCleared = s.icacheCleared
  dcache : t.dcacheCleared = s.dcacheCleared

theorem State.SameStore.refl (s : State) : s.SameStore s := ⟨rfl, rfl, rfl, rfl, rfl⟩

theorem alu_sameStore (op : AluOp) (rd : RegNum) (a b len : Word) (s : State) : s.SameStore (alu op rd a b len s) :=
  ⟨by simp, by simp, by simp, by simp, by simp⟩

/-- What a meaning can do to memory and the caches' lists: nothing, one byte stored in RAM, one word stored in RAM, one block
cleared. -/
def StoreEffect (s t : State) : Prop :=
  s.SameStore t ∨
  (∃ a b, s.kindAt a = some .ram ∧ (s.storeByte a b).SameStore t) ∨
  (∃ a v, s.kindAt a = some .ram ∧ s.kindAt (a + 1) = some .ram ∧ (s.storeWord a v).SameStore t) ∨
  ∃ a, (s.clearValidBits a).SameStore t

/-- The parameters are never changed (00_scope.md R6). -/
theorem StoreEffect.params {s t : State} (h : StoreEffect s t) : t.params = s.params := by
  rcases h with h | ⟨_, _, _, h⟩ | ⟨_, _, _, _, h⟩ | ⟨_, h⟩ <;> exact h.params

theorem storeEffect_alu {x : Result Word} {op : AluOp} {rd : RegNum} {a len : Word} {s t : State}
    (h : (andThen x fun b => .next (alu op rd a b len s)) = (.next t : Result State)) : StoreEffect s t := by
  obtain ⟨b, _, rfl⟩ := aluRead_eq_next.1 h
  exact .inl (alu_sameStore op rd a b len s)

theorem storeEffect_pop {x : Result Word} {f : Word → State} {s t : State} (hf : ∀ v, s.SameStore (f v))
    (h : (andThen x fun v => .next (f v)) = (.next t : Result State)) : StoreEffect s t := by
  obtain ⟨v, _, e⟩ := andThen_eq_next.1 h
  have e : f v = t := by simpa using e
  exact .inl (e ▸ hf v)

theorem storeEffect_next {s u t : State} (h : (.next u : Result State) = .next t) (hu : StoreEffect s u) :
    StoreEffect s t := by
  have e : u = t := by simpa using h
  exact e ▸ hu

theorem storeEffect_jumpIf {c : Bool} {o : Word} {s t : State} (h : jumpIf c o s = .next t) : StoreEffect s t := by
  unfold jumpIf at h
  refine storeEffect_next h (.inl ?_)
  split <;> exact ⟨rfl, rfl, rfl, rfl, rfl⟩

theorem storeEffect_storeByteAt {rA : RegNum} {a len : Word} {s t : State} (h : storeByteAt rA a len s = .next t) :
    StoreEffect s t := by
  obtain ⟨u, hu, e⟩ := andThen_eq_next.1 h
  refine storeEffect_next e ?_
  rcases putByte_eq_next hu with ⟨k, rfl⟩ | ⟨_, rfl⟩
  · exact .inr (.inl ⟨a, _, k, rfl, rfl, rfl, rfl, rfl⟩)
  · exact .inl ⟨rfl, rfl, rfl, rfl, rfl⟩

/-- A word write, whatever is then done outside the store. -/
theorem storeEffect_writeWord {s t u : State} {a v : Word} (h : writeWord s a v = .next u) (hf : u.SameStore t) :
    StoreEffect s t := by
  rcases writeWord_eq_next h with ⟨k, l, rfl⟩ | ⟨k, rfl⟩ | ⟨k, rfl⟩ | rfl
  · exact .inr (.inr (.inl ⟨_, _, k, l, hf⟩))
  · exact .inr (.inl ⟨_, _, k, hf⟩)
  · exact .inr (.inl ⟨_, _, k, hf⟩)
  · exact .inl hf

theorem storeEffect_storeWordAt {rA : RegNum} {a len : Word} {s t : State} (h : storeWordAt rA a len s = .next t) :
    StoreEffect s t := by
  obtain ⟨u, hu, e⟩ := andThen_eq_next.1 h
  have e : u.advance len = t := by simpa using e
  exact storeEffect_writeWord hu (e ▸ ⟨rfl, rfl, rfl, rfl, rfl⟩)

theorem storeEffect_clearCacheBlock {a len : Word} {s t : State} (h : clearCacheBlock a len s = .next t) :
    StoreEffect s t := by
  unfold clearCacheBlock at h
  split at h
  · exact storeEffect_next h (.inr (.inr (.inr ⟨a, rfl, rfl, rfl, rfl, rfl⟩)))
  · cases h

/-- Only the store matters to the effect, and decrementing R15 is outside it. -/
theorem StoreEffect.of_decSp {s t : State} (h : StoreEffect s.decSp t) : StoreEffect s t := by
  rcases h with h | ⟨a, b, k, h⟩ | ⟨a, v, k, l, h⟩ | ⟨a, h⟩
  · exact .inl ⟨by simpa using h.params, by simpa using h.mem, by simpa using h.written, by simpa using h.icache,
      by simpa using h.dcache⟩
  · exact .inr (.inl ⟨a, b, by simpa using k, by simpa using h.params, by simpa using h.mem, by simpa using h.written,
      by simpa using h.icache, by simpa using h.dcache⟩)
  · refine .inr (.inr (.inl ⟨a, v, by simpa using k, (State.kindAt_decSp s (a + 1)).symm.trans l, ?_⟩))
    exact ⟨by simpa using h.params, by simpa [State.storeWord] using h.mem, by simpa [State.storeWord] using h.written,
      by simpa using h.icache, by simpa using h.dcache⟩
  · exact .inr (.inr (.inr ⟨a, by simpa using h.params, by simpa using h.mem, by simpa using h.written,
      by simpa using h.icache, by simpa using h.dcache⟩))

/-- A push, whatever then happens to pc and flags. -/
theorem storeEffect_push {s t : State} {v : Word} {f : State → State}
    (h : (andThen (push s v) fun u => .next (f u)) = (.next t : Result State)) (hf : ∀ u : State, u.SameStore (f u)) :
    StoreEffect s t := by
  obtain ⟨u, hu, e⟩ := andThen_eq_next.1 h
  have e : f u = t := by simpa using e
  exact (storeEffect_writeWord hu (e ▸ hf u)).of_decSp

/-- Every meaning has one of these effects on memory and the caches' lists. -/
theorem exec_storeEffect {i : Instr} {s t : State} (h : exec i s = .next t) : StoreEffect s t := by
  cases i
  case mhr rA k =>
    simp only [exec, execMhr] at h
    split at h
    · exact storeEffect_next h (.inl ⟨by simp, by simp, by simp, by simp, by simp⟩)
    · cases h
  case not | neg | inc | dec => exact storeEffect_next h (.inl ⟨by simp, by simp, by simp, by simp, by simp⟩)
  case mulu | muls =>
    exact storeEffect_next h (.inl ⟨by simp [multiply], by simp [multiply], by simp [multiply], by simp [multiply], by simp [multiply]⟩)
  case pop | popf | ret | reti => exact storeEffect_pop (fun v => ⟨by simp, by simp, by simp, by simp, by simp⟩) h
  case push rA =>
    exact storeEffect_push (v := s.decSp.reg rA) (f := fun u => u.advance 2) h fun u => ⟨rfl, rfl, rfl, rfl, rfl⟩
  case pushf => exact storeEffect_push (v := s.fr.toWord s.params.frReservedRead) (f := fun u => u.advance 2) h fun u => ⟨rfl, rfl, rfl, rfl, rfl⟩
  case call o =>
    exact storeEffect_push (v := s.pc + 4) (f := fun u => u.withPc (s.relative o)) h fun u => ⟨rfl, rfl, rfl, rfl, rfl⟩
  case calla o => exact storeEffect_push (v := s.pc + 4) (f := fun u => u.withPc o) h fun u => ⟨rfl, rfl, rfl, rfl, rfl⟩
  case calli rA =>
    exact storeEffect_push (v := s.pc + 2) (f := fun u => u.withPc (s.decSp.reg rA)) h fun u => ⟨rfl, rfl, rfl, rfl, rfl⟩
  case irc o =>
    exact storeEffect_push (v := s.pc) (f := fun u => (u.withIF false).withPc o) h fun u => ⟨rfl, rfl, rfl, rfl, rfl⟩
  case stbInd | stbBased | stsInd | stsBased => exact storeEffect_storeByteAt h
  case stInd | stBased => exact storeEffect_storeWordAt h
  case ccbInd | ccbBased => exact storeEffect_clearCacheBlock h
  case nop | clc | stc | cli | sti | jmp | jmpa | jmpi => exact storeEffect_next h (.inl ⟨rfl, rfl, rfl, rfl, rfl⟩)
  case jz | jnz | jc | jnc | js | jns | jo | jno | jge | jlt | jgt | jle | jat | jbe | jeq | jne | jbt | jae =>
    exact storeEffect_jumpIf h
  all_goals first
    | exact storeEffect_next h (.inl (alu_sameStore _ _ _ _ _ _))
    | exact storeEffect_alu h

end Sys2Proof.Machine
end

