-- ==== Sys2Proof/Laws/Fetch.lean ====
section
/-! SUPPORT. Laws/Fetch.lean: what fetching one byte, one halfword and one instruction can do (20_memory.md R65, R66, R76;
30_encoding.md R102), so that no later proof unfolds the fetch.
-/
namespace Sys2Proof.Machine

/-- A byte of the image is fetched as data is read. -/
theorem fetchByte_of_image {s : State} {a : Word} {b : Byte} (h : s.byteRead a = some b) (k : a.toNat ∉ s.written) :
    fetchByte s a = .next b := by simp [fetchByte, k, readByte_eq_next.2 h]

/-- The fetch of a byte that the program has written (20_memory.md R76). -/
theorem fetchByte_of_written {s : State} {a : Word} (k : a.toNat ∈ s.written) :
    fetchByte s a = .refused (.fetchOfWrittenByte a) := by simp [fetchByte, k]

/-- The fetch of an unwritten byte that gives no value stops at its address, for a reason that holds there. -/
theorem fetchByte_stop {s : State} {a : Word} (h : s.byteRead a = none) (k : a.toNat ∉ s.written) :
    s.ByteStop a (fetchByte s a) := by
  have e : fetchByte s a = readByte s a := by simp [fetchByte, k]
  rw [e]; exact readByte_stop h

/-- A halfword that is not refused for its alignment is fetched a byte at a time, the first at the lower address. -/
theorem fetchHalfword_eq {s : State} {a : Word} (h : s.misaligned a = false) :
    fetchHalfword s a = andThen (fetchByte s a) fun hi => andThen (fetchByte s (a + 1)) fun lo => .next (halfword hi lo) := by
  simp [fetchHalfword, h]

theorem fetchHalfword_of_image {s : State} {a : Word} {b c : Byte} (h : s.misaligned a = false)
    (i : s.imageAt a [b, c]) : fetchHalfword s a = .next (halfword b c) := by
  obtain ⟨p, q, p', q', -⟩ := i
  rw [fetchHalfword_eq h, fetchByte_of_image p q, andThen_next, fetchByte_of_image p' q', andThen_next]

theorem isLong_halfword (b c : Byte) : isLong (halfword b c) = b.msb := by
  have h : (b ++ c).getLsbD 15 = b.msb := by rw [BitVec.getLsbD_append, BitVec.msb_eq_getLsbD_last]; rfl
  exact h

theorem decodeFetched_of_decodeWords {w imm : Word} {i : Instr} (h : decodeWords w imm = some i)
    (n : i.notInternal = true) : decodeFetched w imm = .next i := by
  have e : isInternal i = false := by cases i <;> first | rfl | cases n
  simp only [decodeFetched, h]
  rw [if_neg (by simp [e])]

/-- Once the opcode halfword of a long instruction has been fetched, the fetch is that of the second halfword
(30_encoding.md R102). -/
theorem fetch_long {s : State} {b c : Byte} {i : Instr} (h : s.misaligned s.pc = false) (l : b.msb = true)
    (d : decodeWords (b ++ c) 0 = some i) (n : i.notInternal = true) (m : s.imageAt s.pc [b, c]) :
    fetch s = andThen (fetchHalfword s (s.pc + 2)) fun imm => decodeFetched (halfword b c) imm := by
  have e : decodeFetched (halfword b c) 0 = .next i := decodeFetched_of_decodeWords d n
  rw [fetch, fetchHalfword_of_image h m, andThen_next, e, andThen_next, if_pos ((isLong_halfword b c).trans l)]

/-- Where no interrupt is taken the step is the fetch, then the instruction (60_exceptions.md R601). -/
theorem step_of_not_accepted {s : State} (h : s.accepted = none) :
    step s = andThen (fetch s) fun i => exec i s.pastBoundary := by rw [step, h]

end Sys2Proof.Machine
end

