-- ==== Sys2Proof/Laws/PerInstr.lean ====
section
/-! SUPPORT. Laws/PerInstr.lean: statements made for each instruction. LengthBit: an instruction has a second halfword exactly when
bit 15 of its opcode halfword is set (30_encoding.md R102).
-/
namespace Sys2Proof.Laws

/-- The length of the encoding agrees with bit 15 of its first halfword (30_encoding.md R102). -/
def LengthBit.Statement (i : Instr) : Prop := ∃ w ws, encode i = w :: ws ∧ ws.length = if isLong w then 1 else 0

theorem LengthBit.movImm4 (rA : RegNum) (imm4 : Nibble) : LengthBit.Statement (.movImm4 rA imm4) := ⟨_, _, rfl, by simp [BitVec.msb]⟩
theorem LengthBit.movReg (rA : RegNum) (rB : RegNum) : LengthBit.Statement (.movReg rA rB) := ⟨_, _, rfl, by simp [BitVec.msb]⟩
theorem LengthBit.movXaf (rA : RegNum) : LengthBit.Statement (.movXaf rA) := ⟨_, _, rfl, by simp [BitVec.msb]⟩
theorem LengthBit.movbInd (rA : RegNum) (rB : RegNum) : LengthBit.Statement (.movbInd rA rB) := ⟨_, _, rfl, by simp [BitVec.msb]⟩
theorem LengthBit.movsInd (rA : RegNum) (rB : RegNum) : LengthBit.Statement (.movsInd rA rB) := ⟨_, _, rfl, by simp [BitVec.msb]⟩
theorem LengthBit.movInd (rA : RegNum) (rB : RegNum) : LengthBit.Statement (.movInd rA rB) := ⟨_, _, rfl, by simp [BitVec.msb]⟩
theorem LengthBit.movImm16 (rA : RegNum) (imm16 : Word) : LengthBit.Statement (.movImm16 rA imm16) := ⟨_, _, rfl, by simp [BitVec.msb]⟩
theorem LengthBit.movbBased (rA : RegNum) (rB : RegNum) (offs16 : Word) : LengthBit.Statement (.movbBased rA rB offs16) := ⟨_, _, rfl, by simp [BitVec.msb]⟩
theorem LengthBit.movsBased (rA : RegNum) (rB : RegNum) (offs16 : Word) : LengthBit.Statement (.movsBased rA rB offs16) := ⟨_, _, rfl, by simp [BitVec.msb]⟩
theorem LengthBit.movBased (rA : RegNum) (rB : RegNum) (offs16 : Word) : LengthBit.Statement (.movBased rA rB offs16) := ⟨_, _, rfl, by simp [BitVec.msb]⟩
theorem LengthBit.addImm4 (rA : RegNum) (imm4 : Nibble) : LengthBit.Statement (.addImm4 rA imm4) := ⟨_, _, rfl, by simp [BitVec.msb]⟩
theorem LengthBit.addReg (rA : RegNum) (rB : RegNum) : LengthBit.Statement (.addReg rA rB) := ⟨_, _, rfl, by simp [BitVec.msb]⟩
theorem LengthBit.addXaf (rA : RegNum) : LengthBit.Statement (.addXaf rA) := ⟨_, _, rfl, by simp [BitVec.msb]⟩
theorem LengthBit.addbInd (rA : RegNum) (rB : RegNum) : LengthBit.Statement (.addbInd rA rB) := ⟨_, _, rfl, by simp [BitVec.msb]⟩
theorem LengthBit.addsInd (rA : RegNum) (rB : RegNum) : LengthBit.Statement (.addsInd rA rB) := ⟨_, _, rfl, by simp [BitVec.msb]⟩
theorem LengthBit.addInd (rA : RegNum) (rB : RegNum) : LengthBit.Statement (.addInd rA rB) := ⟨_, _, rfl, by simp [BitVec.msb]⟩
theorem LengthBit.addImm16 (rA : RegNum) (imm16 : Word) : LengthBit.Statement (.addImm16 rA imm16) := ⟨_, _, rfl, by simp [BitVec.msb]⟩
theorem LengthBit.addRegImm16 (rA : RegNum) (rB : RegNum) (imm16 : Word) : LengthBit.Statement (.addRegImm16 rA rB imm16) := ⟨_, _, rfl, by simp [BitVec.msb]⟩
theorem LengthBit.addbBased (rA : RegNum) (rB : RegNum) (offs16 : Word) : LengthBit.Statement (.addbBased rA rB offs16) := ⟨_, _, rfl, by simp [BitVec.msb]⟩
theorem LengthBit.addsBased (rA : RegNum) (rB : RegNum) (offs16 : Word) : LengthBit.Statement (.addsBased rA rB offs16) := ⟨_, _, rfl, by simp [BitVec.msb]⟩
theorem LengthBit.addBased (rA : RegNum) (rB : RegNum) (offs16 : Word) : LengthBit.Statement (.addBased rA rB offs16) := ⟨_, _, rfl, by simp [BitVec.msb]⟩
theorem LengthBit.adcImm4 (rA : RegNum) (imm4 : Nibble) : LengthBit.Statement (.adcImm4 rA imm4) := ⟨_, _, rfl, by simp [BitVec.msb]⟩
theorem LengthBit.adcReg (rA : RegNum) (rB : RegNum) : LengthBit.Statement (.adcReg rA rB) := ⟨_, _, rfl, by simp [BitVec.msb]⟩
theorem LengthBit.adcXaf (rA : RegNum) : LengthBit.Statement (.adcXaf rA) := ⟨_, _, rfl, by simp [BitVec.msb]⟩
theorem LengthBit.adcbInd (rA : RegNum) (rB : RegNum) : LengthBit.Statement (.adcbInd rA rB) := ⟨_, _, rfl, by simp [BitVec.msb]⟩
theorem LengthBit.adcsInd (rA : RegNum) (rB : RegNum) : LengthBit.Statement (.adcsInd rA rB) := ⟨_, _, rfl, by simp [BitVec.msb]⟩
theorem LengthBit.adcInd (rA : RegNum) (rB : RegNum) : LengthBit.Statement (.adcInd rA rB) := ⟨_, _, rfl, by simp [BitVec.msb]⟩
theorem LengthBit.adcImm16 (rA : RegNum) (imm16 : Word) : LengthBit.Statement (.adcImm16 rA imm16) := ⟨_, _, rfl, by simp [BitVec.msb]⟩
theorem LengthBit.adcRegImm16 (rA : RegNum) (rB : RegNum) (imm16 : Word) : LengthBit.Statement (.adcRegImm16 rA rB imm16) := ⟨_, _, rfl, by simp [BitVec.msb]⟩
theorem LengthBit.adcbBased (rA : RegNum) (rB : RegNum) (offs16 : Word) : LengthBit.Statement (.adcbBased rA rB offs16) := ⟨_, _, rfl, by simp [BitVec.msb]⟩
theorem LengthBit.adcsBased (rA : RegNum) (rB : RegNum) (offs16 : Word) : LengthBit.Statement (.adcsBased rA rB offs16) := ⟨_, _, rfl, by simp [BitVec.msb]⟩
theorem LengthBit.adcBased (rA : RegNum) (rB : RegNum) (offs16 : Word) : LengthBit.Statement (.adcBased rA rB offs16) := ⟨_, _, rfl, by simp [BitVec.msb]⟩
theorem LengthBit.cmpImm4 (rA : RegNum) (imm4 : Nibble) : LengthBit.Statement (.cmpImm4 rA imm4) := ⟨_, _, rfl, by simp [BitVec.msb]⟩
theorem LengthBit.cmpReg (rA : RegNum) (rB : RegNum) : LengthBit.Statement (.cmpReg rA rB) := ⟨_, _, rfl, by simp [BitVec.msb]⟩
theorem LengthBit.cmpXaf (rA : RegNum) : LengthBit.Statement (.cmpXaf rA) := ⟨_, _, rfl, by simp [BitVec.msb]⟩
theorem LengthBit.cmpbInd (rA : RegNum) (rB : RegNum) : LengthBit.Statement (.cmpbInd rA rB) := ⟨_, _, rfl, by simp [BitVec.msb]⟩
theorem LengthBit.cmpsInd (rA : RegNum) (rB : RegNum) : LengthBit.Statement (.cmpsInd rA rB) := ⟨_, _, rfl, by simp [BitVec.msb]⟩
theorem LengthBit.cmpInd (rA : RegNum) (rB : RegNum) : LengthBit.Statement (.cmpInd rA rB) := ⟨_, _, rfl, by simp [BitVec.msb]⟩
theorem LengthBit.cmpImm16 (rA : RegNum) (imm16 : Word) : LengthBit.Statement (.cmpImm16 rA imm16) := ⟨_, _, rfl, by simp [BitVec.msb]⟩
theorem LengthBit.cmpRegImm16 (rA : RegNum) (rB : RegNum) (imm16 : Word) : LengthBit.Statement (.cmpRegImm16 rA rB imm16) := ⟨_, _, rfl, by simp [BitVec.msb]⟩
theorem LengthBit.cmpbBased (rA : RegNum) (rB : RegNum) (offs16 : Word) : LengthBit.Statement (.cmpbBased rA rB offs16) := ⟨_, _, rfl, by simp [BitVec.msb]⟩
theorem LengthBit.cmpsBased (rA : RegNum) (rB : RegNum) (offs16 : Word) : LengthBit.Statement (.cmpsBased rA rB offs16) := ⟨_, _, rfl, by simp [BitVec.msb]⟩
theorem LengthBit.cmpBased (rA : RegNum) (rB : RegNum) (offs16 : Word) : LengthBit.Statement (.cmpBased rA rB offs16) := ⟨_, _, rfl, by simp [BitVec.msb]⟩
theorem LengthBit.subImm4 (rA : RegNum) (imm4 : Nibble) : LengthBit.Statement (.subImm4 rA imm4) := ⟨_, _, rfl, by simp [BitVec.msb]⟩
theorem LengthBit.subReg (rA : RegNum) (rB : RegNum) : LengthBit.Statement (.subReg rA rB) := ⟨_, _, rfl, by simp [BitVec.msb]⟩
theorem LengthBit.subXaf (rA : RegNum) : LengthBit.Statement (.subXaf rA) := ⟨_, _, rfl, by simp [BitVec.msb]⟩
theorem LengthBit.subbInd (rA : RegNum) (rB : RegNum) : LengthBit.Statement (.subbInd rA rB) := ⟨_, _, rfl, by simp [BitVec.msb]⟩
theorem LengthBit.subsInd (rA : RegNum) (rB : RegNum) : LengthBit.Statement (.subsInd rA rB) := ⟨_, _, rfl, by simp [BitVec.msb]⟩
theorem LengthBit.subInd (rA : RegNum) (rB : RegNum) : LengthBit.Statement (.subInd rA rB) := ⟨_, _, rfl, by simp [BitVec.msb]⟩
theorem LengthBit.subImm16 (rA : RegNum) (imm16 : Word) : LengthBit.Statement (.subImm16 rA imm16) := ⟨_, _, rfl, by simp [BitVec.msb]⟩
theorem LengthBit.subRegImm16 (rA : RegNum) (rB : RegNum) (imm16 : Word) : LengthBit.Statement (.subRegImm16 rA rB imm16) := ⟨_, _, rfl, by simp [BitVec.msb]⟩
theorem LengthBit.subbBased (rA : RegNum) (rB : RegNum) (offs16 : Word) : LengthBit.Statement (.subbBased rA rB offs16) := ⟨_, _, rfl, by simp [BitVec.msb]⟩
theorem LengthBit.subsBased (rA : RegNum) (rB : RegNum) (offs16 : Word) : LengthBit.Statement (.subsBased rA rB offs16) := ⟨_, _, rfl, by simp [BitVec.msb]⟩
theorem LengthBit.subBased (rA : RegNum) (rB : RegNum) (offs16 : Word) : LengthBit.Statement (.subBased rA rB offs16) := ⟨_, _, rfl, by simp [BitVec.msb]⟩
theorem LengthBit.sbbImm4 (rA : RegNum) (imm4 : Nibble) : LengthBit.Statement (.sbbImm4 rA imm4) := ⟨_, _, rfl, by simp [BitVec.msb]⟩
theorem LengthBit.sbbReg (rA : RegNum) (rB : RegNum) : LengthBit.Statement (.sbbReg rA rB) := ⟨_, _, rfl, by simp [BitVec.msb]⟩
theorem LengthBit.sbbXaf (rA : RegNum) : LengthBit.Statement (.sbbXaf rA) := ⟨_, _, rfl, by simp [BitVec.msb]⟩
theorem LengthBit.sbbbInd (rA : RegNum) (rB : RegNum) : LengthBit.Statement (.sbbbInd rA rB) := ⟨_, _, rfl, by simp [BitVec.msb]⟩
theorem LengthBit.sbbsInd (rA : RegNum) (rB : RegNum) : LengthBit.Statement (.sbbsInd rA rB) := ⟨_, _, rfl, by simp [BitVec.msb]⟩
theorem LengthBit.sbbInd (rA : RegNum) (rB : RegNum) : LengthBit.Statement (.sbbInd rA rB) := ⟨_, _, rfl, by simp [BitVec.msb]⟩
theorem LengthBit.sbbImm16 (rA : RegNum) (imm16 : Word) : LengthBit.Statement (.sbbImm16 rA imm16) := ⟨_, _, rfl, by simp [BitVec.msb]⟩
theorem LengthBit.sbbRegImm16 (rA : RegNum) (rB : RegNum) (imm16 : Word) : LengthBit.Statement (.sbbRegImm16 rA rB imm16) := ⟨_, _, rfl, by simp [BitVec.msb]⟩
theorem LengthBit.sbbbBased (rA : RegNum) (rB : RegNum) (offs16 : Word) : LengthBit.Statement (.sbbbBased rA rB offs16) := ⟨_, _, rfl, by simp [BitVec.msb]⟩
theorem LengthBit.sbbsBased (rA : RegNum) (rB : RegNum) (offs16 : Word) : LengthBit.Statement (.sbbsBased rA rB offs16) := ⟨_, _, rfl, by simp [BitVec.msb]⟩
theorem LengthBit.sbbBased (rA : RegNum) (rB : RegNum) (offs16 : Word) : LengthBit.Statement (.sbbBased rA rB offs16) := ⟨_, _, rfl, by simp [BitVec.msb]⟩
theorem LengthBit.andImm4 (rA : RegNum) (imm4 : Nibble) : LengthBit.Statement (.andImm4 rA imm4) := ⟨_, _, rfl, by simp [BitVec.msb]⟩
theorem LengthBit.andReg (rA : RegNum) (rB : RegNum) : LengthBit.Statement (.andReg rA rB) := ⟨_, _, rfl, by simp [BitVec.msb]⟩
theorem LengthBit.andXaf (rA : RegNum) : LengthBit.Statement (.andXaf rA) := ⟨_, _, rfl, by simp [BitVec.msb]⟩
theorem LengthBit.andbInd (rA : RegNum) (rB : RegNum) : LengthBit.Statement (.andbInd rA rB) := ⟨_, _, rfl, by simp [BitVec.msb]⟩
theorem LengthBit.andsInd (rA : RegNum) (rB : RegNum) : LengthBit.Statement (.andsInd rA rB) := ⟨_, _, rfl, by simp [BitVec.msb]⟩
theorem LengthBit.andInd (rA : RegNum) (rB : RegNum) : LengthBit.Statement (.andInd rA rB) := ⟨_, _, rfl, by simp [BitVec.msb]⟩
theorem LengthBit.andImm16 (rA : RegNum) (imm16 : Word) : LengthBit.Statement (.andImm16 rA imm16) := ⟨_, _, rfl, by simp [BitVec.msb]⟩
theorem LengthBit.andRegImm16 (rA : RegNum) (rB : RegNum) (imm16 : Word) : LengthBit.Statement (.andRegImm16 rA rB imm16) := ⟨_, _, rfl, by simp [BitVec.msb]⟩
theorem LengthBit.andbBased (rA : RegNum) (rB : RegNum) (offs16 : Word) : LengthBit.Statement (.andbBased rA rB offs16) := ⟨_, _, rfl, by simp [BitVec.msb]⟩
theorem LengthBit.andsBased (rA : RegNum) (rB : RegNum) (offs16 : Word) : LengthBit.Statement (.andsBased rA rB offs16) := ⟨_, _, rfl, by simp [BitVec.msb]⟩
theorem LengthBit.andBased (rA : RegNum) (rB : RegNum) (offs16 : Word) : LengthBit.Statement (.andBased rA rB offs16) := ⟨_, _, rfl, by simp [BitVec.msb]⟩
theorem LengthBit.orImm4 (rA : RegNum) (imm4 : Nibble) : LengthBit.Statement (.orImm4 rA imm4) := ⟨_, _, rfl, by simp [BitVec.msb]⟩
theorem LengthBit.orReg (rA : RegNum) (rB : RegNum) : LengthBit.Statement (.orReg rA rB) := ⟨_, _, rfl, by simp [BitVec.msb]⟩
theorem LengthBit.orXaf (rA : RegNum) : LengthBit.Statement (.orXaf rA) := ⟨_, _, rfl, by simp [BitVec.msb]⟩
theorem LengthBit.orbInd (rA : RegNum) (rB : RegNum) : LengthBit.Statement (.orbInd rA rB) := ⟨_, _, rfl, by simp [BitVec.msb]⟩
theorem LengthBit.orsInd (rA : RegNum) (rB : RegNum) : LengthBit.Statement (.orsInd rA rB) := ⟨_, _, rfl, by simp [BitVec.msb]⟩
theorem LengthBit.orInd (rA : RegNum) (rB : RegNum) : LengthBit.Statement (.orInd rA rB) := ⟨_, _, rfl, by simp [BitVec.msb]⟩
theorem LengthBit.orImm16 (rA : RegNum) (imm16 : Word) : LengthBit.Statement (.orImm16 rA imm16) := ⟨_, _, rfl, by simp [BitVec.msb]⟩
theorem LengthBit.orRegImm16 (rA : RegNum) (rB : RegNum) (imm16 : Word) : LengthBit.Statement (.orRegImm16 rA rB imm16) := ⟨_, _, rfl, by simp [BitVec.msb]⟩
theorem LengthBit.orbBased (rA : RegNum) (rB : RegNum) (offs16 : Word) : LengthBit.Statement (.orbBased rA rB offs16) := ⟨_, _, rfl, by simp [BitVec.msb]⟩
theorem LengthBit.orsBased (rA : RegNum) (rB : RegNum) (offs16 : Word) : LengthBit.Statement (.orsBased rA rB offs16) := ⟨_, _, rfl, by simp [BitVec.msb]⟩
theorem LengthBit.orBased (rA : RegNum) (rB : RegNum) (offs16 : Word) : LengthBit.Statement (.orBased rA rB offs16) := ⟨_, _, rfl, by simp [BitVec.msb]⟩
theorem LengthBit.xorImm4 (rA : RegNum) (imm4 : Nibble) : LengthBit.Statement (.xorImm4 rA imm4) := ⟨_, _, rfl, by simp [BitVec.msb]⟩
theorem LengthBit.xorReg (rA : RegNum) (rB : RegNum) : LengthBit.Statement (.xorReg rA rB) := ⟨_, _, rfl, by simp [BitVec.msb]⟩
theorem LengthBit.xorXaf (rA : RegNum) : LengthBit.Statement (.xorXaf rA) := ⟨_, _, rfl, by simp [BitVec.msb]⟩
theorem LengthBit.xorbInd (rA : RegNum) (rB : RegNum) : LengthBit.Statement (.xorbInd rA rB) := ⟨_, _, rfl, by simp [BitVec.msb]⟩
theorem LengthBit.xorsInd (rA : RegNum) (rB : RegNum) : LengthBit.Statement (.xorsInd rA rB) := ⟨_, _, rfl, by simp [BitVec.msb]⟩
theorem LengthBit.xorInd (rA : RegNum) (rB : RegNum) : LengthBit.Statement (.xorInd rA rB) := ⟨_, _, rfl, by simp [BitVec.msb]⟩
theorem LengthBit.xorImm16 (rA : RegNum) (imm16 : Word) : LengthBit.Statement (.xorImm16 rA imm16) := ⟨_, _, rfl, by simp [BitVec.msb]⟩
theorem LengthBit.xorRegImm16 (rA : RegNum) (rB : RegNum) (imm16 : Word) : LengthBit.Statement (.xorRegImm16 rA rB imm16) := ⟨_, _, rfl, by simp [BitVec.msb]⟩
theorem LengthBit.xorbBased (rA : RegNum) (rB : RegNum) (offs16 : Word) : LengthBit.Statement (.xorbBased rA rB offs16) := ⟨_, _, rfl, by simp [BitVec.msb]⟩
theorem LengthBit.xorsBased (rA : RegNum) (rB : RegNum) (offs16 : Word) : LengthBit.Statement (.xorsBased rA rB offs16) := ⟨_, _, rfl, by simp [BitVec.msb]⟩
theorem LengthBit.xorBased (rA : RegNum) (rB : RegNum) (offs16 : Word) : LengthBit.Statement (.xorBased rA rB offs16) := ⟨_, _, rfl, by simp [BitVec.msb]⟩
theorem LengthBit.asrImm4 (rA : RegNum) (imm4 : Nibble) : LengthBit.Statement (.asrImm4 rA imm4) := ⟨_, _, rfl, by simp [BitVec.msb]⟩
theorem LengthBit.asrReg (rA : RegNum) (rB : RegNum) : LengthBit.Statement (.asrReg rA rB) := ⟨_, _, rfl, by simp [BitVec.msb]⟩
theorem LengthBit.asrXaf (rA : RegNum) : LengthBit.Statement (.asrXaf rA) := ⟨_, _, rfl, by simp [BitVec.msb]⟩
theorem LengthBit.asrbInd (rA : RegNum) (rB : RegNum) : LengthBit.Statement (.asrbInd rA rB) := ⟨_, _, rfl, by simp [BitVec.msb]⟩
theorem LengthBit.asrInd (rA : RegNum) (rB : RegNum) : LengthBit.Statement (.asrInd rA rB) := ⟨_, _, rfl, by simp [BitVec.msb]⟩
theorem LengthBit.asrImm16 (rA : RegNum) (imm16 : Word) : LengthBit.Statement (.asrImm16 rA imm16) := ⟨_, _, rfl, by simp [BitVec.msb]⟩
theorem LengthBit.asrRegImm16 (rA : RegNum) (rB : RegNum) (imm16 : Word) : LengthBit.Statement (.asrRegImm16 rA rB imm16) := ⟨_, _, rfl, by simp [BitVec.msb]⟩
theorem LengthBit.asrbBased (rA : RegNum) (rB : RegNum) (offs16 : Word) : LengthBit.Statement (.asrbBased rA rB offs16) := ⟨_, _, rfl, by simp [BitVec.msb]⟩
theorem LengthBit.asrBased (rA : RegNum) (rB : RegNum) (offs16 : Word) : LengthBit.Statement (.asrBased rA rB offs16) := ⟨_, _, rfl, by simp [BitVec.msb]⟩
theorem LengthBit.rlcImm4 (rA : RegNum) (imm4 : Nibble) : LengthBit.Statement (.rlcImm4 rA imm4) := ⟨_, _, rfl, by simp [BitVec.msb]⟩
theorem LengthBit.rlcReg (rA : RegNum) (rB : RegNum) : LengthBit.Statement (.rlcReg rA rB) := ⟨_, _, rfl, by simp [BitVec.msb]⟩
theorem LengthBit.rlcXaf (rA : RegNum) : LengthBit.Statement (.rlcXaf rA) := ⟨_, _, rfl, by simp [BitVec.msb]⟩
theorem LengthBit.rlcbInd (rA : RegNum) (rB : RegNum) : LengthBit.Statement (.rlcbInd rA rB) := ⟨_, _, rfl, by simp [BitVec.msb]⟩
theorem LengthBit.rlcInd (rA : RegNum) (rB : RegNum) : LengthBit.Statement (.rlcInd rA rB) := ⟨_, _, rfl, by simp [BitVec.msb]⟩
theorem LengthBit.rlcImm16 (rA : RegNum) (imm16 : Word) : LengthBit.Statement (.rlcImm16 rA imm16) := ⟨_, _, rfl, by simp [BitVec.msb]⟩
theorem LengthBit.rlcRegImm16 (rA : RegNum) (rB : RegNum) (imm16 : Word) : LengthBit.Statement (.rlcRegImm16 rA rB imm16) := ⟨_, _, rfl, by simp [BitVec.msb]⟩
theorem LengthBit.rlcbBased (rA : RegNum) (rB : RegNum) (offs16 : Word) : LengthBit.Statement (.rlcbBased rA rB offs16) := ⟨_, _, rfl, by simp [BitVec.msb]⟩
theorem LengthBit.rlcBased (rA : RegNum) (rB : RegNum) (offs16 : Word) : LengthBit.Statement (.rlcBased rA rB offs16) := ⟨_, _, rfl, by simp [BitVec.msb]⟩
theorem LengthBit.rorImm4 (rA : RegNum) (imm4 : Nibble) : LengthBit.Statement (.rorImm4 rA imm4) := ⟨_, _, rfl, by simp [BitVec.msb]⟩
theorem LengthBit.rorReg (rA : RegNum) (rB : RegNum) : LengthBit.Statement (.rorReg rA rB) := ⟨_, _, rfl, by simp [BitVec.msb]⟩
theorem LengthBit.rorXaf (rA : RegNum) : LengthBit.Statement (.rorXaf rA) := ⟨_, _, rfl, by simp [BitVec.msb]⟩
theorem LengthBit.rorbInd (rA : RegNum) (rB : RegNum) : LengthBit.Statement (.rorbInd rA rB) := ⟨_, _, rfl, by simp [BitVec.msb]⟩
theorem LengthBit.rorInd (rA : RegNum) (rB : RegNum) : LengthBit.Statement (.rorInd rA rB) := ⟨_, _, rfl, by simp [BitVec.msb]⟩
theorem LengthBit.rorImm16 (rA : RegNum) (imm16 : Word) : LengthBit.Statement (.rorImm16 rA imm16) := ⟨_, _, rfl, by simp [BitVec.msb]⟩
theorem LengthBit.rorRegImm16 (rA : RegNum) (rB : RegNum) (imm16 : Word) : LengthBit.Statement (.rorRegImm16 rA rB imm16) := ⟨_, _, rfl, by simp [BitVec.msb]⟩
theorem LengthBit.rorbBased (rA : RegNum) (rB : RegNum) (offs16 : Word) : LengthBit.Statement (.rorbBased rA rB offs16) := ⟨_, _, rfl, by simp [BitVec.msb]⟩
theorem LengthBit.rorBased (rA : RegNum) (rB : RegNum) (offs16 : Word) : LengthBit.Statement (.rorBased rA rB offs16) := ⟨_, _, rfl, by simp [BitVec.msb]⟩
theorem LengthBit.rrcImm4 (rA : RegNum) (imm4 : Nibble) : LengthBit.Statement (.rrcImm4 rA imm4) := ⟨_, _, rfl, by simp [BitVec.msb]⟩
theorem LengthBit.rrcReg (rA : RegNum) (rB : RegNum) : LengthBit.Statement (.rrcReg rA rB) := ⟨_, _, rfl, by simp [BitVec.msb]⟩
theorem LengthBit.rrcXaf (rA : RegNum) : LengthBit.Statement (.rrcXaf rA) := ⟨_, _, rfl, by simp [BitVec.msb]⟩
theorem LengthBit.rrcbInd (rA : RegNum) (rB : RegNum) : LengthBit.Statement (.rrcbInd rA rB) := ⟨_, _, rfl, by simp [BitVec.msb]⟩
theorem LengthBit.rrcInd (rA : RegNum) (rB : RegNum) : LengthBit.Statement (.rrcInd rA rB) := ⟨_, _, rfl, by simp [BitVec.msb]⟩
theorem LengthBit.rrcImm16 (rA : RegNum) (imm16 : Word) : LengthBit.Statement (.rrcImm16 rA imm16) := ⟨_, _, rfl, by simp [BitVec.msb]⟩
theorem LengthBit.rrcRegImm16 (rA : RegNum) (rB : RegNum) (imm16 : Word) : LengthBit.Statement (.rrcRegImm16 rA rB imm16) := ⟨_, _, rfl, by simp [BitVec.msb]⟩
theorem LengthBit.rrcbBased (rA : RegNum) (rB : RegNum) (offs16 : Word) : LengthBit.Statement (.rrcbBased rA rB offs16) := ⟨_, _, rfl, by simp [BitVec.msb]⟩
theorem LengthBit.rrcBased (rA : RegNum) (rB : RegNum) (offs16 : Word) : LengthBit.Statement (.rrcBased rA rB offs16) := ⟨_, _, rfl, by simp [BitVec.msb]⟩
theorem LengthBit.shlImm4 (rA : RegNum) (imm4 : Nibble) : LengthBit.Statement (.shlImm4 rA imm4) := ⟨_, _, rfl, by simp [BitVec.msb]⟩
theorem LengthBit.shlReg (rA : RegNum) (rB : RegNum) : LengthBit.Statement (.shlReg rA rB) := ⟨_, _, rfl, by simp [BitVec.msb]⟩
theorem LengthBit.shlXaf (rA : RegNum) : LengthBit.Statement (.shlXaf rA) := ⟨_, _, rfl, by simp [BitVec.msb]⟩
theorem LengthBit.shlbInd (rA : RegNum) (rB : RegNum) : LengthBit.Statement (.shlbInd rA rB) := ⟨_, _, rfl, by simp [BitVec.msb]⟩
theorem LengthBit.shlInd (rA : RegNum) (rB : RegNum) : LengthBit.Statement (.shlInd rA rB) := ⟨_, _, rfl, by simp [BitVec.msb]⟩
theorem LengthBit.shlImm16 (rA : RegNum) (imm16 : Word) : LengthBit.Statement (.shlImm16 rA imm16) := ⟨_, _, rfl, by simp [BitVec.msb]⟩
theorem LengthBit.shlRegImm16 (rA : RegNum) (rB : RegNum) (imm16 : Word) : LengthBit.Statement (.shlRegImm16 rA rB imm16) := ⟨_, _, rfl, by simp [BitVec.msb]⟩
theorem LengthBit.shlbBased (rA : RegNum) (rB : RegNum) (offs16 : Word) : LengthBit.Statement (.shlbBased rA rB offs16) := ⟨_, _, rfl, by simp [BitVec.msb]⟩
theorem LengthBit.shlBased (rA : RegNum) (rB : RegNum) (offs16 : Word) : LengthBit.Statement (.shlBased rA rB offs16) := ⟨_, _, rfl, by simp [BitVec.msb]⟩
theorem LengthBit.shrImm4 (rA : RegNum) (imm4 : Nibble) : LengthBit.Statement (.shrImm4 rA imm4) := ⟨_, _, rfl, by simp [BitVec.msb]⟩
theorem LengthBit.shrReg (rA : RegNum) (rB : RegNum) : LengthBit.Statement (.shrReg rA rB) := ⟨_, _, rfl, by simp [BitVec.msb]⟩
theorem LengthBit.shrXaf (rA : RegNum) : LengthBit.Statement (.shrXaf rA) := ⟨_, _, rfl, by simp [BitVec.msb]⟩
theorem LengthBit.shrbInd (rA : RegNum) (rB : RegNum) : LengthBit.Statement (.shrbInd rA rB) := ⟨_, _, rfl, by simp [BitVec.msb]⟩
theorem LengthBit.shrInd (rA : RegNum) (rB : RegNum) : LengthBit.Statement (.shrInd rA rB) := ⟨_, _, rfl, by simp [BitVec.msb]⟩
theorem LengthBit.shrImm16 (rA : RegNum) (imm16 : Word) : LengthBit.Statement (.shrImm16 rA imm16) := ⟨_, _, rfl, by simp [BitVec.msb]⟩
theorem LengthBit.shrRegImm16 (rA : RegNum) (rB : RegNum) (imm16 : Word) : LengthBit.Statement (.shrRegImm16 rA rB imm16) := ⟨_, _, rfl, by simp [BitVec.msb]⟩
theorem LengthBit.shrbBased (rA : RegNum) (rB : RegNum) (offs16 : Word) : LengthBit.Statement (.shrbBased rA rB offs16) := ⟨_, _, rfl, by simp [BitVec.msb]⟩
theorem LengthBit.shrBased (rA : RegNum) (rB : RegNum) (offs16 : Word) : LengthBit.Statement (.shrBased rA rB offs16) := ⟨_, _, rfl, by simp [BitVec.msb]⟩
theorem LengthBit.nop : LengthBit.Statement (.nop) := ⟨_, _, rfl, by simp [BitVec.msb]⟩
theorem LengthBit.jmpi (rA : RegNum) : LengthBit.Statement (.jmpi rA) := ⟨_, _, rfl, by simp [BitVec.msb]⟩
theorem LengthBit.calli (rA : RegNum) : LengthBit.Statement (.calli rA) := ⟨_, _, rfl, by simp [BitVec.msb]⟩
theorem LengthBit.ret : LengthBit.Statement (.ret) := ⟨_, _, rfl, by simp [BitVec.msb]⟩
theorem LengthBit.reti : LengthBit.Statement (.reti) := ⟨_, _, rfl, by simp [BitVec.msb]⟩
theorem LengthBit.not (rA : RegNum) : LengthBit.Statement (.not rA) := ⟨_, _, rfl, by simp [BitVec.msb]⟩
theorem LengthBit.neg (rA : RegNum) : LengthBit.Statement (.neg rA) := ⟨_, _, rfl, by simp [BitVec.msb]⟩
theorem LengthBit.inc (rA : RegNum) : LengthBit.Statement (.inc rA) := ⟨_, _, rfl, by simp [BitVec.msb]⟩
theorem LengthBit.dec (rA : RegNum) : LengthBit.Statement (.dec rA) := ⟨_, _, rfl, by simp [BitVec.msb]⟩
theorem LengthBit.push (rA : RegNum) : LengthBit.Statement (.push rA) := ⟨_, _, rfl, by simp [BitVec.msb]⟩
theorem LengthBit.pushf : LengthBit.Statement (.pushf) := ⟨_, _, rfl, by simp [BitVec.msb]⟩
theorem LengthBit.pop (rA : RegNum) : LengthBit.Statement (.pop rA) := ⟨_, _, rfl, by simp [BitVec.msb]⟩
theorem LengthBit.popf : LengthBit.Statement (.popf) := ⟨_, _, rfl, by simp [BitVec.msb]⟩
theorem LengthBit.clc : LengthBit.Statement (.clc) := ⟨_, _, rfl, by simp [BitVec.msb]⟩
theorem LengthBit.stc : LengthBit.Statement (.stc) := ⟨_, _, rfl, by simp [BitVec.msb]⟩
theorem LengthBit.cli : LengthBit.Statement (.cli) := ⟨_, _, rfl, by simp [BitVec.msb]⟩
theorem LengthBit.sti : LengthBit.Statement (.sti) := ⟨_, _, rfl, by simp [BitVec.msb]⟩
theorem LengthBit.mulu (rA : RegNum) (rB : RegNum) : LengthBit.Statement (.mulu rA rB) := ⟨_, _, rfl, by simp [BitVec.msb]⟩
theorem LengthBit.muls (rA : RegNum) (rB : RegNum) : LengthBit.Statement (.muls rA rB) := ⟨_, _, rfl, by simp [BitVec.msb]⟩
theorem LengthBit.mhr (rA : RegNum) (hrB : Nibble) : LengthBit.Statement (.mhr rA hrB) := ⟨_, _, rfl, by simp [BitVec.msb]⟩
theorem LengthBit.stbInd (rA : RegNum) (rB : RegNum) : LengthBit.Statement (.stbInd rA rB) := ⟨_, _, rfl, by simp [BitVec.msb]⟩
theorem LengthBit.stInd (rA : RegNum) (rB : RegNum) : LengthBit.Statement (.stInd rA rB) := ⟨_, _, rfl, by simp [BitVec.msb]⟩
theorem LengthBit.ccbInd (rB : RegNum) : LengthBit.Statement (.ccbInd rB) := ⟨_, _, rfl, by simp [BitVec.msb]⟩
theorem LengthBit.stbBased (rA : RegNum) (rB : RegNum) (offs16 : Word) : LengthBit.Statement (.stbBased rA rB offs16) := ⟨_, _, rfl, by simp [BitVec.msb]⟩
theorem LengthBit.stBased (rA : RegNum) (rB : RegNum) (offs16 : Word) : LengthBit.Statement (.stBased rA rB offs16) := ⟨_, _, rfl, by simp [BitVec.msb]⟩
theorem LengthBit.ccbBased (rB : RegNum) (offs16 : Word) : LengthBit.Statement (.ccbBased rB offs16) := ⟨_, _, rfl, by simp [BitVec.msb]⟩
theorem LengthBit.jz (offs16 : Word) : LengthBit.Statement (.jz offs16) := ⟨_, _, rfl, by simp [BitVec.msb]⟩
theorem LengthBit.jnz (offs16 : Word) : LengthBit.Statement (.jnz offs16) := ⟨_, _, rfl, by simp [BitVec.msb]⟩
theorem LengthBit.jc (offs16 : Word) : LengthBit.Statement (.jc offs16) := ⟨_, _, rfl, by simp [BitVec.msb]⟩
theorem LengthBit.jnc (offs16 : Word) : LengthBit.Statement (.jnc offs16) := ⟨_, _, rfl, by simp [BitVec.msb]⟩
theorem LengthBit.js (offs16 : Word) : LengthBit.Statement (.js offs16) := ⟨_, _, rfl, by simp [BitVec.msb]⟩
theorem LengthBit.jns (offs16 : Word) : LengthBit.Statement (.jns offs16) := ⟨_, _, rfl, by simp [BitVec.msb]⟩
theorem LengthBit.jo (offs16 : Word) : LengthBit.Statement (.jo offs16) := ⟨_, _, rfl, by simp [BitVec.msb]⟩
theorem LengthBit.jno (offs16 : Word) : LengthBit.Statement (.jno offs16) := ⟨_, _, rfl, by simp [BitVec.msb]⟩
theorem LengthBit.jge (offs16 : Word) : LengthBit.Statement (.jge offs16) := ⟨_, _, rfl, by simp [BitVec.msb]⟩
theorem LengthBit.jlt (offs16 : Word) : LengthBit.Statement (.jlt offs16) := ⟨_, _, rfl, by simp [BitVec.msb]⟩
theorem LengthBit.jgt (offs16 : Word) : LengthBit.Statement (.jgt offs16) := ⟨_, _, rfl, by simp [BitVec.msb]⟩
theorem LengthBit.jle (offs16 : Word) : LengthBit.Statement (.jle offs16) := ⟨_, _, rfl, by simp [BitVec.msb]⟩
theorem LengthBit.jat (offs16 : Word) : LengthBit.Statement (.jat offs16) := ⟨_, _, rfl, by simp [BitVec.msb]⟩
theorem LengthBit.jbe (offs16 : Word) : LengthBit.Statement (.jbe offs16) := ⟨_, _, rfl, by simp [BitVec.msb]⟩
theorem LengthBit.jmp (offs16 : Word) : LengthBit.Statement (.jmp offs16) := ⟨_, _, rfl, by simp [BitVec.msb]⟩
theorem LengthBit.jmpa (offs16 : Word) : LengthBit.Statement (.jmpa offs16) := ⟨_, _, rfl, by simp [BitVec.msb]⟩
theorem LengthBit.call (offs16 : Word) : LengthBit.Statement (.call offs16) := ⟨_, _, rfl, by simp [BitVec.msb]⟩
theorem LengthBit.calla (offs16 : Word) : LengthBit.Statement (.calla offs16) := ⟨_, _, rfl, by simp [BitVec.msb]⟩
theorem LengthBit.irc (offs16 : Word) : LengthBit.Statement (.irc offs16) := ⟨_, _, rfl, by simp [BitVec.msb]⟩
theorem LengthBit.stsInd (rA : RegNum) (rB : RegNum) : LengthBit.Statement (.stsInd rA rB) := ⟨_, _, rfl, by simp [BitVec.msb]⟩
theorem LengthBit.stsBased (rA : RegNum) (rB : RegNum) (offs16 : Word) : LengthBit.Statement (.stsBased rA rB offs16) := ⟨_, _, rfl, by simp [BitVec.msb]⟩
theorem LengthBit.jeq (offs16 : Word) : LengthBit.Statement (.jeq offs16) := ⟨_, _, rfl, by simp [BitVec.msb]⟩
theorem LengthBit.jne (offs16 : Word) : LengthBit.Statement (.jne offs16) := ⟨_, _, rfl, by simp [BitVec.msb]⟩
theorem LengthBit.jbt (offs16 : Word) : LengthBit.Statement (.jbt offs16) := ⟨_, _, rfl, by simp [BitVec.msb]⟩
theorem LengthBit.jae (offs16 : Word) : LengthBit.Statement (.jae offs16) := ⟨_, _, rfl, by simp [BitVec.msb]⟩

end Sys2Proof.Laws
end

