-- ==== Sys2Proof/Tests/Slice0.lean ====
section
/-! SUPPORT. Tests/Slice0.lean: checks of the model against the examples and vectors of the spec, which were not computed with this
model (95_test_vectors.md section 1), and for each statement with hypotheses a named witness that meets them.
-/
namespace Sys2Proof.Tests
open Sys2Proof.Machine

/-! ### Well-formedness -/

/-- 30_encoding.md R123: IRC is no instruction of a program. -/
theorem test_wellFormed_refuses_irc : (Instr.irc 0x0040).wellFormed {} = false := by decide

/-- 40_move_store.md R200: only HR0 exists. -/
theorem test_wellFormed_refuses_hidden_register_1 : (Instr.mhr 3 1).wellFormed {} = false := by decide

theorem test_wellFormed_accepts : (Instr.mhr 3 0).wellFormed {} = true ∧ (Instr.addReg 1 2).wellFormed {} = true ∧
    (Instr.mhr 3 1).wellFormed { hrCount := 2 } = true := by decide

/-! ### Decoding -/

/-- 40_move_store.md, the example encodings of R202 to R213. -/
theorem test_decode_move_1 :
    decodeBytes [0x10, 0x15] = .ok (.movImm4 1 5) [] ∧
    decodeBytes [0x20, 0x12] = .ok (.movReg 1 2) [] ∧
    decodeBytes [0x30, 0x10] = .ok (.movXaf 1) [] ∧
    decodeBytes [0x40, 0x12] = .ok (.movbInd 1 2) [] ∧
    decodeBytes [0x50, 0x12] = .ok (.movsInd 1 2) [] ∧
    decodeBytes [0x60, 0x12] = .ok (.movInd 1 2) [] ∧
    decodeBytes [0x80, 0x10, 0x11, 0x11] = .ok (.movImm16 1 0x1111) [] ∧
    decodeBytes [0xC0, 0x12, 0x00, 0x10] = .ok (.movbBased 1 2 0x0010) [] ∧
    decodeBytes [0xD0, 0x12, 0x00, 0x10] = .ok (.movsBased 1 2 0x0010) [] ∧
    decodeBytes [0xE0, 0x12, 0xFF, 0xFC] = .ok (.movBased 1 2 0xFFFC) [] ∧
    decodeBytes [0x0A, 0x30] = .ok (.mhr 3 0) [] ∧
    decodeBytes [0x70, 0x12] = .ok (.stbInd 1 2) [] := by decide

/-- 40_move_store.md, the example encodings of R214 to R216. -/
theorem test_decode_move_2 :
    decodeBytes [0x71, 0x12] = .ok (.stInd 1 2) [] ∧
    decodeBytes [0xF0, 0x12, 0x00, 0x10] = .ok (.stbBased 1 2 0x0010) [] ∧
    decodeBytes [0xF1, 0x12, 0x00, 0x10] = .ok (.stBased 1 2 0x0010) [] := by decide

/-- 41_arith.md, the example encodings of R251 to R263. -/
theorem test_decode_arith_1 :
    decodeBytes [0x11, 0x15] = .ok (.addImm4 1 5) [] ∧
    decodeBytes [0x21, 0x12] = .ok (.addReg 1 2) [] ∧
    decodeBytes [0x31, 0x10] = .ok (.addXaf 1) [] ∧
    decodeBytes [0x41, 0x12] = .ok (.addbInd 1 2) [] ∧
    decodeBytes [0x51, 0x12] = .ok (.addsInd 1 2) [] ∧
    decodeBytes [0x61, 0x12] = .ok (.addInd 1 2) [] ∧
    decodeBytes [0x81, 0x10, 0x11, 0x11] = .ok (.addImm16 1 0x1111) [] ∧
    decodeBytes [0xB1, 0x12, 0xFF, 0x01] = .ok (.addRegImm16 1 2 0xFF01) [] ∧
    decodeBytes [0xC1, 0x12, 0x00, 0x10] = .ok (.addbBased 1 2 0x0010) [] ∧
    decodeBytes [0xD1, 0x12, 0x00, 0x10] = .ok (.addsBased 1 2 0x0010) [] ∧
    decodeBytes [0xE1, 0x12, 0xFF, 0xFC] = .ok (.addBased 1 2 0xFFFC) [] ∧
    decodeBytes [0x12, 0x15] = .ok (.adcImm4 1 5) [] := by decide

/-- 41_arith.md, the example encodings of R264 to R276. -/
theorem test_decode_arith_2 :
    decodeBytes [0x22, 0x12] = .ok (.adcReg 1 2) [] ∧
    decodeBytes [0x32, 0x10] = .ok (.adcXaf 1) [] ∧
    decodeBytes [0x42, 0x12] = .ok (.adcbInd 1 2) [] ∧
    decodeBytes [0x52, 0x12] = .ok (.adcsInd 1 2) [] ∧
    decodeBytes [0x62, 0x12] = .ok (.adcInd 1 2) [] ∧
    decodeBytes [0x82, 0x10, 0x11, 0x11] = .ok (.adcImm16 1 0x1111) [] ∧
    decodeBytes [0xB2, 0x12, 0xFF, 0x01] = .ok (.adcRegImm16 1 2 0xFF01) [] ∧
    decodeBytes [0xC2, 0x12, 0x00, 0x10] = .ok (.adcbBased 1 2 0x0010) [] ∧
    decodeBytes [0xD2, 0x12, 0x00, 0x10] = .ok (.adcsBased 1 2 0x0010) [] ∧
    decodeBytes [0xE2, 0x12, 0xFF, 0xFC] = .ok (.adcBased 1 2 0xFFFC) [] ∧
    decodeBytes [0x18, 0x15] = .ok (.cmpImm4 1 5) [] ∧
    decodeBytes [0x28, 0x12] = .ok (.cmpReg 1 2) [] := by decide

/-- 41_arith.md, the example encodings of R277 to R292. -/
theorem test_decode_arith_3 :
    decodeBytes [0x38, 0x10] = .ok (.cmpXaf 1) [] ∧
    decodeBytes [0x48, 0x12] = .ok (.cmpbInd 1 2) [] ∧
    decodeBytes [0x58, 0x12] = .ok (.cmpsInd 1 2) [] ∧
    decodeBytes [0x68, 0x12] = .ok (.cmpInd 1 2) [] ∧
    decodeBytes [0x88, 0x10, 0x00, 0x01] = .ok (.cmpImm16 1 0x0001) [] ∧
    decodeBytes [0xB8, 0x12, 0x60, 0x00] = .ok (.cmpRegImm16 1 2 0x6000) [] ∧
    decodeBytes [0xC8, 0x12, 0x00, 0x10] = .ok (.cmpbBased 1 2 0x0010) [] ∧
    decodeBytes [0xD8, 0x12, 0x00, 0x10] = .ok (.cmpsBased 1 2 0x0010) [] ∧
    decodeBytes [0xE8, 0x12, 0xFF, 0xFC] = .ok (.cmpBased 1 2 0xFFFC) [] ∧
    decodeBytes [0x13, 0x15] = .ok (.subImm4 1 5) [] ∧
    decodeBytes [0x23, 0x12] = .ok (.subReg 1 2) [] ∧
    decodeBytes [0x33, 0x10] = .ok (.subXaf 1) [] := by decide

/-- 41_arith.md, the example encodings of R293 to R305. -/
theorem test_decode_arith_4 :
    decodeBytes [0x43, 0x12] = .ok (.subbInd 1 2) [] ∧
    decodeBytes [0x53, 0x12] = .ok (.subsInd 1 2) [] ∧
    decodeBytes [0x63, 0x12] = .ok (.subInd 1 2) [] ∧
    decodeBytes [0x83, 0x10, 0x00, 0x01] = .ok (.subImm16 1 0x0001) [] ∧
    decodeBytes [0xB3, 0x12, 0x60, 0x00] = .ok (.subRegImm16 1 2 0x6000) [] ∧
    decodeBytes [0xC3, 0x12, 0x00, 0x10] = .ok (.subbBased 1 2 0x0010) [] ∧
    decodeBytes [0xD3, 0x12, 0x00, 0x10] = .ok (.subsBased 1 2 0x0010) [] ∧
    decodeBytes [0xE3, 0x12, 0xFF, 0xFC] = .ok (.subBased 1 2 0xFFFC) [] ∧
    decodeBytes [0x14, 0x15] = .ok (.sbbImm4 1 5) [] ∧
    decodeBytes [0x24, 0x12] = .ok (.sbbReg 1 2) [] ∧
    decodeBytes [0x34, 0x10] = .ok (.sbbXaf 1) [] ∧
    decodeBytes [0x44, 0x12] = .ok (.sbbbInd 1 2) [] := by decide

/-- 41_arith.md, the example encodings of R306 to R286. -/
theorem test_decode_arith_5 :
    decodeBytes [0x54, 0x12] = .ok (.sbbsInd 1 2) [] ∧
    decodeBytes [0x64, 0x12] = .ok (.sbbInd 1 2) [] ∧
    decodeBytes [0x84, 0x10, 0x00, 0x01] = .ok (.sbbImm16 1 0x0001) [] ∧
    decodeBytes [0xB4, 0x12, 0x60, 0x00] = .ok (.sbbRegImm16 1 2 0x6000) [] ∧
    decodeBytes [0xC4, 0x12, 0x00, 0x10] = .ok (.sbbbBased 1 2 0x0010) [] ∧
    decodeBytes [0xD4, 0x12, 0x00, 0x10] = .ok (.sbbsBased 1 2 0x0010) [] ∧
    decodeBytes [0xE4, 0x12, 0xFF, 0xFC] = .ok (.sbbBased 1 2 0xFFFC) [] ∧
    decodeBytes [0x03, 0x11] = .ok (.neg 1) [] ∧
    decodeBytes [0x03, 0x12] = .ok (.inc 1) [] ∧
    decodeBytes [0x03, 0x13] = .ok (.dec 1) [] := by decide

/-- 42_logic.md, the example encodings of R332 to R345. -/
theorem test_decode_logic_1 :
    decodeBytes [0x15, 0x1A] = .ok (.andImm4 1 10) [] ∧
    decodeBytes [0x25, 0x12] = .ok (.andReg 1 2) [] ∧
    decodeBytes [0x35, 0x10] = .ok (.andXaf 1) [] ∧
    decodeBytes [0x45, 0x12] = .ok (.andbInd 1 2) [] ∧
    decodeBytes [0x55, 0x12] = .ok (.andsInd 1 2) [] ∧
    decodeBytes [0x65, 0x12] = .ok (.andInd 1 2) [] ∧
    decodeBytes [0x85, 0x10, 0xFF, 0x00] = .ok (.andImm16 1 0xFF00) [] ∧
    decodeBytes [0xB5, 0x12, 0x80, 0x01] = .ok (.andRegImm16 1 2 0x8001) [] ∧
    decodeBytes [0xC5, 0x12, 0x00, 0x10] = .ok (.andbBased 1 2 0x0010) [] ∧
    decodeBytes [0xD5, 0x12, 0x00, 0x10] = .ok (.andsBased 1 2 0x0010) [] ∧
    decodeBytes [0xE5, 0x12, 0xFF, 0xFC] = .ok (.andBased 1 2 0xFFFC) [] ∧
    decodeBytes [0x16, 0x1A] = .ok (.orImm4 1 10) [] := by decide

/-- 42_logic.md, the example encodings of R346 to R358. -/
theorem test_decode_logic_2 :
    decodeBytes [0x26, 0x12] = .ok (.orReg 1 2) [] ∧
    decodeBytes [0x36, 0x10] = .ok (.orXaf 1) [] ∧
    decodeBytes [0x46, 0x12] = .ok (.orbInd 1 2) [] ∧
    decodeBytes [0x56, 0x12] = .ok (.orsInd 1 2) [] ∧
    decodeBytes [0x66, 0x12] = .ok (.orInd 1 2) [] ∧
    decodeBytes [0x86, 0x10, 0xFF, 0x00] = .ok (.orImm16 1 0xFF00) [] ∧
    decodeBytes [0xB6, 0x12, 0x80, 0x01] = .ok (.orRegImm16 1 2 0x8001) [] ∧
    decodeBytes [0xC6, 0x12, 0x00, 0x10] = .ok (.orbBased 1 2 0x0010) [] ∧
    decodeBytes [0xD6, 0x12, 0x00, 0x10] = .ok (.orsBased 1 2 0x0010) [] ∧
    decodeBytes [0xE6, 0x12, 0xFF, 0xFC] = .ok (.orBased 1 2 0xFFFC) [] ∧
    decodeBytes [0x17, 0x1A] = .ok (.xorImm4 1 10) [] ∧
    decodeBytes [0x27, 0x12] = .ok (.xorReg 1 2) [] := by decide

/-- 42_logic.md, the example encodings of R359 to R343. -/
theorem test_decode_logic_3 :
    decodeBytes [0x37, 0x10] = .ok (.xorXaf 1) [] ∧
    decodeBytes [0x47, 0x12] = .ok (.xorbInd 1 2) [] ∧
    decodeBytes [0x57, 0x12] = .ok (.xorsInd 1 2) [] ∧
    decodeBytes [0x67, 0x12] = .ok (.xorInd 1 2) [] ∧
    decodeBytes [0x87, 0x10, 0xFF, 0x00] = .ok (.xorImm16 1 0xFF00) [] ∧
    decodeBytes [0xB7, 0x12, 0x80, 0x01] = .ok (.xorRegImm16 1 2 0x8001) [] ∧
    decodeBytes [0xC7, 0x12, 0x00, 0x10] = .ok (.xorbBased 1 2 0x0010) [] ∧
    decodeBytes [0xD7, 0x12, 0x00, 0x10] = .ok (.xorsBased 1 2 0x0010) [] ∧
    decodeBytes [0xE7, 0x12, 0xFF, 0xFC] = .ok (.xorBased 1 2 0xFFFC) [] ∧
    decodeBytes [0x03, 0x10] = .ok (.not 1) [] := by decide

/-- 43_shift_rotate.md, the example encodings of R385 to R397. -/
theorem test_decode_shift_1 :
    decodeBytes [0x1B, 0x11] = .ok (.asrImm4 1 1) [] ∧
    decodeBytes [0x2B, 0x12] = .ok (.asrReg 1 2) [] ∧
    decodeBytes [0x3B, 0x10] = .ok (.asrXaf 1) [] ∧
    decodeBytes [0x4B, 0x12] = .ok (.asrbInd 1 2) [] ∧
    decodeBytes [0x6B, 0x12] = .ok (.asrInd 1 2) [] ∧
    decodeBytes [0x8B, 0x10, 0x00, 0x0F] = .ok (.asrImm16 1 0x000F) [] ∧
    decodeBytes [0xBB, 0x12, 0x00, 0x02] = .ok (.asrRegImm16 1 2 0x0002) [] ∧
    decodeBytes [0xCB, 0x12, 0x00, 0x10] = .ok (.asrbBased 1 2 0x0010) [] ∧
    decodeBytes [0xEB, 0x12, 0xFF, 0xFC] = .ok (.asrBased 1 2 0xFFFC) [] ∧
    decodeBytes [0x1D, 0x11] = .ok (.rlcImm4 1 1) [] ∧
    decodeBytes [0x2D, 0x12] = .ok (.rlcReg 1 2) [] ∧
    decodeBytes [0x3D, 0x10] = .ok (.rlcXaf 1) [] := by decide

/-- 43_shift_rotate.md, the example encodings of R398 to R410. -/
theorem test_decode_shift_2 :
    decodeBytes [0x4D, 0x12] = .ok (.rlcbInd 1 2) [] ∧
    decodeBytes [0x6D, 0x12] = .ok (.rlcInd 1 2) [] ∧
    decodeBytes [0x8D, 0x10, 0x00, 0x0F] = .ok (.rlcImm16 1 0x000F) [] ∧
    decodeBytes [0xBD, 0x12, 0x00, 0x02] = .ok (.rlcRegImm16 1 2 0x0002) [] ∧
    decodeBytes [0xCD, 0x12, 0x00, 0x10] = .ok (.rlcbBased 1 2 0x0010) [] ∧
    decodeBytes [0xED, 0x12, 0xFF, 0xFC] = .ok (.rlcBased 1 2 0xFFFC) [] ∧
    decodeBytes [0x1C, 0x11] = .ok (.rorImm4 1 1) [] ∧
    decodeBytes [0x2C, 0x12] = .ok (.rorReg 1 2) [] ∧
    decodeBytes [0x3C, 0x10] = .ok (.rorXaf 1) [] ∧
    decodeBytes [0x4C, 0x12] = .ok (.rorbInd 1 2) [] ∧
    decodeBytes [0x6C, 0x12] = .ok (.rorInd 1 2) [] ∧
    decodeBytes [0x8C, 0x10, 0x00, 0x0F] = .ok (.rorImm16 1 0x000F) [] := by decide

/-- 43_shift_rotate.md, the example encodings of R411 to R423. -/
theorem test_decode_shift_3 :
    decodeBytes [0xBC, 0x12, 0x00, 0x02] = .ok (.rorRegImm16 1 2 0x0002) [] ∧
    decodeBytes [0xCC, 0x12, 0x00, 0x10] = .ok (.rorbBased 1 2 0x0010) [] ∧
    decodeBytes [0xEC, 0x12, 0xFF, 0xFC] = .ok (.rorBased 1 2 0xFFFC) [] ∧
    decodeBytes [0x1E, 0x11] = .ok (.rrcImm4 1 1) [] ∧
    decodeBytes [0x2E, 0x12] = .ok (.rrcReg 1 2) [] ∧
    decodeBytes [0x3E, 0x10] = .ok (.rrcXaf 1) [] ∧
    decodeBytes [0x4E, 0x12] = .ok (.rrcbInd 1 2) [] ∧
    decodeBytes [0x6E, 0x12] = .ok (.rrcInd 1 2) [] ∧
    decodeBytes [0x8E, 0x10, 0x00, 0x0F] = .ok (.rrcImm16 1 0x000F) [] ∧
    decodeBytes [0xBE, 0x12, 0x00, 0x02] = .ok (.rrcRegImm16 1 2 0x0002) [] ∧
    decodeBytes [0xCE, 0x12, 0x00, 0x10] = .ok (.rrcbBased 1 2 0x0010) [] ∧
    decodeBytes [0xEE, 0x12, 0xFF, 0xFC] = .ok (.rrcBased 1 2 0xFFFC) [] := by decide

/-- 43_shift_rotate.md, the example encodings of R425 to R437. -/
theorem test_decode_shift_4 :
    decodeBytes [0x19, 0x11] = .ok (.shlImm4 1 1) [] ∧
    decodeBytes [0x29, 0x12] = .ok (.shlReg 1 2) [] ∧
    decodeBytes [0x39, 0x10] = .ok (.shlXaf 1) [] ∧
    decodeBytes [0x49, 0x12] = .ok (.shlbInd 1 2) [] ∧
    decodeBytes [0x69, 0x12] = .ok (.shlInd 1 2) [] ∧
    decodeBytes [0x89, 0x10, 0x00, 0x0F] = .ok (.shlImm16 1 0x000F) [] ∧
    decodeBytes [0xB9, 0x12, 0x00, 0x02] = .ok (.shlRegImm16 1 2 0x0002) [] ∧
    decodeBytes [0xC9, 0x12, 0x00, 0x10] = .ok (.shlbBased 1 2 0x0010) [] ∧
    decodeBytes [0xE9, 0x12, 0xFF, 0xFC] = .ok (.shlBased 1 2 0xFFFC) [] ∧
    decodeBytes [0x1A, 0x11] = .ok (.shrImm4 1 1) [] ∧
    decodeBytes [0x2A, 0x12] = .ok (.shrReg 1 2) [] ∧
    decodeBytes [0x3A, 0x10] = .ok (.shrXaf 1) [] := by decide

/-- 43_shift_rotate.md, the example encodings of R438 to R443. -/
theorem test_decode_shift_5 :
    decodeBytes [0x4A, 0x12] = .ok (.shrbInd 1 2) [] ∧
    decodeBytes [0x6A, 0x12] = .ok (.shrInd 1 2) [] ∧
    decodeBytes [0x8A, 0x10, 0x00, 0x0F] = .ok (.shrImm16 1 0x000F) [] ∧
    decodeBytes [0xBA, 0x12, 0x00, 0x02] = .ok (.shrRegImm16 1 2 0x0002) [] ∧
    decodeBytes [0xCA, 0x12, 0x00, 0x10] = .ok (.shrbBased 1 2 0x0010) [] ∧
    decodeBytes [0xEA, 0x12, 0xFF, 0xFC] = .ok (.shrBased 1 2 0xFFFC) [] := by decide

/-- 47_system.md, the example encodings of R534 to R532. -/
theorem test_decode_system :
    decodeBytes [0x00, 0x00] = .ok (.nop) [] ∧
    decodeBytes [0x02, 0x01] = .ok (.reti) [] ∧
    decodeBytes [0x78, 0x02] = .ok (.ccbInd 2) [] ∧
    decodeBytes [0xF8, 0x02, 0x00, 0x10] = .ok (.ccbBased 2 0x0010) [] := by decide

/-- 45_control.md, the example encodings of R491 to R483. -/
theorem test_decode_control_1 :
    decodeBytes [0x01, 0x30] = .ok (.jmpi 3) [] ∧
    decodeBytes [0x01, 0x31] = .ok (.calli 3) [] ∧
    decodeBytes [0x02, 0x00] = .ok (.ret) [] ∧
    decodeBytes [0x90, 0x00, 0x00, 0x20] = .ok (.jz 0x0020) [] ∧
    decodeBytes [0x91, 0x00, 0x00, 0x20] = .ok (.jnz 0x0020) [] ∧
    decodeBytes [0x92, 0x00, 0x00, 0x20] = .ok (.jc 0x0020) [] ∧
    decodeBytes [0x93, 0x00, 0x00, 0x20] = .ok (.jnc 0x0020) [] ∧
    decodeBytes [0x94, 0x00, 0x00, 0x20] = .ok (.js 0x0020) [] ∧
    decodeBytes [0x95, 0x00, 0x00, 0x20] = .ok (.jns 0x0020) [] ∧
    decodeBytes [0x96, 0x00, 0x00, 0x20] = .ok (.jo 0x0020) [] ∧
    decodeBytes [0x97, 0x00, 0x00, 0x20] = .ok (.jno 0x0020) [] ∧
    decodeBytes [0x98, 0x00, 0x00, 0x20] = .ok (.jge 0x0020) [] := by decide

/-- 45_control.md, the example encodings of R484 to R473. -/
theorem test_decode_control_2 :
    decodeBytes [0x99, 0x00, 0x00, 0x20] = .ok (.jlt 0x0020) [] ∧
    decodeBytes [0x9A, 0x00, 0x00, 0x20] = .ok (.jgt 0x0020) [] ∧
    decodeBytes [0x9B, 0x00, 0x00, 0x20] = .ok (.jle 0x0020) [] ∧
    decodeBytes [0x9C, 0x00, 0x00, 0x20] = .ok (.jat 0x0020) [] ∧
    decodeBytes [0x9D, 0x00, 0x00, 0x20] = .ok (.jbe 0x0020) [] ∧
    decodeBytes [0x9E, 0x00, 0x00, 0x10] = .ok (.jmp 0x0010) [] ∧
    decodeBytes [0x9F, 0x00, 0x12, 0x34] = .ok (.jmpa 0x1234) [] ∧
    decodeBytes [0xA0, 0x00, 0x00, 0x40] = .ok (.call 0x0040) [] ∧
    decodeBytes [0xA1, 0x00, 0x00, 0x10] = .ok (.calla 0x0010) [] := by decide

/-- 46_stack_flags.md, the example encodings of R513 to R518. -/
theorem test_decode_stackflags :
    decodeBytes [0x04, 0x10] = .ok (.push 1) [] ∧
    decodeBytes [0x04, 0x01] = .ok (.pushf) [] ∧
    decodeBytes [0x04, 0x12] = .ok (.pop 1) [] ∧
    decodeBytes [0x04, 0x03] = .ok (.popf) [] ∧
    decodeBytes [0x05, 0x00] = .ok (.clc) [] ∧
    decodeBytes [0x05, 0x01] = .ok (.stc) [] ∧
    decodeBytes [0x05, 0x02] = .ok (.cli) [] ∧
    decodeBytes [0x05, 0x03] = .ok (.sti) [] := by decide

/-- 44_multiply.md, the example encodings of R461 to R460. -/
theorem test_decode_multiply :
    decodeBytes [0x08, 0x12] = .ok (.mulu 1 2) [] ∧
    decodeBytes [0x09, 0x12] = .ok (.muls 1 2) [] := by decide

/-- 30_encoding.md R119: IRC is a row of the table; it is refused at the fetch, not by the decoder. -/
theorem test_decode_irc : decodeBytes [0xA8, 0x00, 0x00, 0x40] = .ok (.irc 0x0040) [] := by decide

/-- 30_encoding.md R132: a second name has the words of its first name. -/
theorem test_encode_second_names :
    encode (.stsInd 1 2) = [0x7012] ∧ encode (.stsBased 1 2 0x0010) = [0xF012, 0x0010] ∧
    encode (.jeq 0x0020) = [0x9000, 0x0020] ∧ encode (.jne 0x0020) = [0x9100, 0x0020] ∧
    encode (.jbt 0x0020) = [0x9200, 0x0020] ∧ encode (.jae 0x0020) = [0x9300, 0x0020] := by decide

/-- 95_test_vectors.md section 3.10: a nibble printed x is not examined. -/
theorem test_decode_ignores_x :
    decodeBytes [0x00, 0xFF] = .ok .nop [] ∧ decodeBytes [0x02, 0xF1] = .ok .reti [] ∧
    decodeBytes [0x04, 0x13] = .ok .popf [] ∧ decodeBytes [0x80, 0x1F, 0x12, 0x34] = .ok (.movImm16 1 0x1234) [] := by decide

/-- 95_test_vectors.md section 3.10, 30_encoding.md R121: unassigned opcodes. -/
theorem test_decode_refuses :
    decodeBytes [0x01, 0x12] = .error (.unassignedOpcode 0x0112) ∧
    decodeBytes [0x06, 0x00] = .error (.unassignedOpcode 0x0600) ∧
    decodeBytes [0x1F, 0x00] = .error (.unassignedOpcode 0x1F00) ∧
    decodeBytes [0x59, 0x12] = .error (.unassignedOpcode 0x5912) ∧
    decodeBytes [0xB0, 0x12, 0x00, 0x00] = .error (.unassignedOpcode 0xB012) ∧
    decodeBytes [0x90, 0x10, 0x00, 0x00] = .error (.unassignedOpcode 0x9010) ∧
    decodeBytes [0xA8, 0x10, 0x00, 0x00] = .error (.unassignedOpcode 0xA810) := by decide

theorem test_decode_truncated : decodeBytes [0x80, 0x10, 0x12] = .error .truncated := by decide

theorem test_decodeTableWord :
    decodeTableWord 16 0x1015 = some (.movImm4 1 5) ∧ decodeTableWord 32 0x00059E00 = some (.jmp 0x0005) := by decide

/-! ### Instructions -/

/-- All six flags clear. -/
def clear : Flags := { CF := false, AF := false, ZF := false, SF := false, OF := false, IF := false }

/-- A state with a pc, flags, HR0, some registers and some bytes. -/
def start (pc : Word) (f : Flags) (h : Word) (rs : List (RegNum × Word)) (ms : List (Word × Byte)) : State :=
  let s0 := ((State.reset.withPc pc).withFr f).withHr0 h
  let s1 := rs.foldl (fun s r => s.setReg r.1 r.2) s0
  ms.foldl (fun s m => s.poke m.1 m.2) s1

/-- What is asked of the next state, where there is one. -/
def after {α : Type} (x : Host.Outcome State Fault Refusal) (f : State → α) : Option α :=
  match x with
  | .next t => some (f t)
  | _ => none

/-- Why a step was refused. -/
def refusal (x : Host.Outcome State Fault Refusal) : Option Refusal :=
  match x with
  | .refused r => some r
  | _ => none

/-- Why a step faulted. -/
def faultOf (x : Host.Outcome State Fault Refusal) : Option Fault :=
  match x with
  | .fault r => some r
  | _ => none

/-- 40_move_store.md R202, its example. -/
theorem test_movImm4 : after (exec (.movImm4 1 5)
    (start 0x0100 clear 0x0000 [(1, 0xFFFE)] []))
    (fun t => t.reg 1) = some (0x0005) := by decide

/-- 40_move_store.md R205, its example. -/
theorem test_movbInd : after (exec (.movbInd 1 2)
    (start 0x0100 clear 0x0000 [(1, 0x1200), (2, 0x0200)] [(0x0200, 0xFF)]))
    (fun t => t.reg 1) = some (0x00FF) := by decide

/-- 40_move_store.md R208, its example. -/
theorem test_movImm16 : after (exec (.movImm16 1 0x1111)
    (start 0x0100 clear 0x0000 [(1, 0x1234)] []))
    (fun t => t.reg 1) = some (0x1111) := by decide

/-- 41_arith.md R253, its example. -/
theorem test_addXaf : after (exec (.addXaf 1)
    (start 0x0100 { clear with AF := true } 0x0000 [(1, 0x0001)] []))
    (fun t => (t.reg 1, t.fr.OF, t.fr.SF, t.fr.ZF, t.fr.AF, t.fr.CF)) = some (0x0000, false, false, true, true, true) := by decide

/-- 41_arith.md R256, its example. -/
theorem test_addInd : after (exec (.addInd 1 2)
    (start 0x0100 clear 0x0000 [(1, 0x8000), (2, 0x0200)] [(0x0200, 0x80), (0x0201, 0x00)]))
    (fun t => (t.reg 1, t.fr.OF, t.fr.SF, t.fr.ZF, t.fr.AF, t.fr.CF)) = some (0x0000, true, false, true, true, true) := by decide

/-- 41_arith.md R259, its example. -/
theorem test_addbBased : after (exec (.addbBased 1 2 0x0010)
    (start 0x0100 clear 0x0000 [(1, 0x0001), (2, 0x01F0)] [(0x0200, 0x80)]))
    (fun t => (t.reg 1, t.fr.OF, t.fr.SF, t.fr.ZF, t.fr.AF, t.fr.CF)) = some (0x0081, false, false, false, false, false) := by decide

/-- 41_arith.md R267, its example. -/
theorem test_adcsInd : after (exec (.adcsInd 1 2)
    (start 0x0100 { clear with CF := true } 0x0000 [(1, 0x1200), (2, 0x0200)] [(0x0200, 0xFF)]))
    (fun t => (t.reg 1, t.fr.OF, t.fr.SF, t.fr.ZF, t.fr.AF, t.fr.CF)) = some (0x1200, false, false, false, true, true) := by decide

/-- 41_arith.md R270, its example. -/
theorem test_adcRegImm16 : after (exec (.adcRegImm16 1 2 0xFF01)
    (start 0x0100 { clear with CF := true } 0x0000 [(2, 0x00FF)] []))
    (fun t => (t.reg 1, t.fr.OF, t.fr.SF, t.fr.ZF, t.fr.AF, t.fr.CF)) = some (0x0001, false, false, false, true, true) := by decide

/-- 41_arith.md R273, its example. -/
theorem test_adcBased : after (exec (.adcBased 1 2 0xFFFC)
    (start 0x0100 { clear with CF := true } 0x0000 [(1, 0x7000), (2, 0x0204)] [(0x0200, 0x10), (0x0201, 0x00)]))
    (fun t => (t.reg 1, t.fr.OF, t.fr.SF, t.fr.ZF, t.fr.AF, t.fr.CF)) = some (0x8001, true, true, false, false, false) := by decide

/-- 41_arith.md R296, its example. -/
theorem test_subImm16 : after (exec (.subImm16 1 0x0001)
    (start 0x0100 clear 0x0000 [(1, 0x0000)] []))
    (fun t => (t.reg 1, t.fr.OF, t.fr.SF, t.fr.ZF, t.fr.AF, t.fr.CF)) = some (0xFFFF, false, true, false, false, true) := by decide

/-- 41_arith.md R299, its example. -/
theorem test_subsBased : after (exec (.subsBased 1 2 0x0010)
    (start 0x0100 clear 0x0000 [(1, 0x0080), (2, 0x01F0)] [(0x0200, 0x80)]))
    (fun t => (t.reg 1, t.fr.OF, t.fr.SF, t.fr.ZF, t.fr.AF, t.fr.CF)) = some (0x0100, false, false, false, true, true) := by decide

/-- 41_arith.md R291, its example. -/
theorem test_subReg : after (exec (.subReg 1 2)
    (start 0x0100 clear 0x0000 [(1, 0x8000), (2, 0x0001)] []))
    (fun t => (t.reg 1, t.fr.OF, t.fr.SF, t.fr.ZF, t.fr.AF, t.fr.CF)) = some (0x7FFF, true, false, false, false, false) := by decide

/-- 41_arith.md R310, its example. -/
theorem test_sbbbBased : after (exec (.sbbbBased 1 2 0x0010)
    (start 0x0100 { clear with CF := true } 0x0000 [(1, 0x0080), (2, 0x01F0)] [(0x0200, 0x80)]))
    (fun t => (t.reg 1, t.fr.OF, t.fr.SF, t.fr.ZF, t.fr.AF, t.fr.CF)) = some (0xFFFF, false, true, false, false, true) := by decide

/-- 41_arith.md R302, its example. -/
theorem test_sbbImm4 : after (exec (.sbbImm4 1 5)
    (start 0x0100 { clear with CF := true } 0x0000 [(1, 0x0003)] []))
    (fun t => (t.reg 1, t.fr.OF, t.fr.SF, t.fr.ZF, t.fr.AF, t.fr.CF)) = some (0xFFFD, false, true, false, false, true) := by decide

/-- 41_arith.md R305, its example. -/
theorem test_sbbbInd : after (exec (.sbbbInd 1 2)
    (start 0x0100 { clear with CF := true } 0x0000 [(1, 0x0100), (2, 0x0200)] [(0x0200, 0xFF)]))
    (fun t => (t.reg 1, t.fr.OF, t.fr.SF, t.fr.ZF, t.fr.AF, t.fr.CF)) = some (0x0000, false, false, true, false, false) := by decide

/-- 42_logic.md R342, its example. -/
theorem test_andBased : after (exec (.andBased 1 2 0xFFFC)
    (start 0x0100 clear 0x0000 [(1, 0xFF00), (2, 0x0204)] [(0x0200, 0x0F), (0x0201, 0xF0)]))
    (fun t => (t.reg 1, t.fr.SF, t.fr.ZF, t.fr.AF, t.fr.CF)) = some (0x0F00, false, false, false, false) := by decide

/-- 42_logic.md R334, its example. -/
theorem test_andXaf : after (exec (.andXaf 1)
    (start 0x0100 { clear with AF := true } 0x0000 [(1, 0x1234)] []))
    (fun t => (t.reg 1, t.fr.SF, t.fr.ZF, t.fr.AF, t.fr.CF)) = some (0x1234, false, false, true, false) := by decide

/-- 42_logic.md R337, its example. -/
theorem test_andInd : after (exec (.andInd 1 2)
    (start 0x0100 clear 0x0000 [(1, 0xAAAA), (2, 0x0200)] [(0x0200, 0x55), (0x0201, 0x55)]))
    (fun t => (t.reg 1, t.fr.SF, t.fr.ZF, t.fr.AF, t.fr.CF)) = some (0x0000, false, true, false, false) := by decide

/-- 42_logic.md R346, its example. -/
theorem test_orReg : after (exec (.orReg 1 2)
    (start 0x0100 clear 0x0000 [(1, 0xF0F0), (2, 0x3C3C)] []))
    (fun t => (t.reg 1, t.fr.OF, t.fr.SF, t.fr.ZF, t.fr.AF, t.fr.CF)) = some (0xFCFC, false, true, false, false, false) := by decide

/-- 42_logic.md R349, its example. -/
theorem test_orsInd : after (exec (.orsInd 1 2)
    (start 0x0100 clear 0x0000 [(1, 0xFFFF), (2, 0x0200)] [(0x0200, 0x8F)]))
    (fun t => (t.reg 1, t.fr.OF, t.fr.SF, t.fr.ZF, t.fr.AF, t.fr.CF)) = some (0xFFFF, false, true, false, true, false) := by decide

/-- 42_logic.md R352, its example. -/
theorem test_orRegImm16 : after (exec (.orRegImm16 1 2 0x8001)
    (start 0x0100 clear 0x0000 [(2, 0x8421)] []))
    (fun t => (t.reg 1, t.fr.OF, t.fr.SF, t.fr.ZF, t.fr.AF, t.fr.CF)) = some (0x8421, false, true, false, true, false) := by decide

/-- 42_logic.md R360, its example. -/
theorem test_xorbInd : after (exec (.xorbInd 1 2)
    (start 0x0100 clear 0x0000 [(1, 0xFFFF), (2, 0x0200)] [(0x0200, 0x0F)]))
    (fun t => (t.reg 1, t.fr.OF, t.fr.SF, t.fr.ZF, t.fr.AF, t.fr.CF)) = some (0xFFF0, false, true, false, false, false) := by decide

/-- 42_logic.md R363, its example. -/
theorem test_xorImm16 : after (exec (.xorImm16 1 0xFF00)
    (start 0x0100 clear 0x0000 [(1, 0x1234)] []))
    (fun t => (t.reg 1, t.fr.OF, t.fr.SF, t.fr.ZF, t.fr.AF, t.fr.CF)) = some (0xED34, false, true, false, true, false) := by decide

/-- 42_logic.md R366, its example. -/
theorem test_xorsBased : after (exec (.xorsBased 1 2 0x0010)
    (start 0x0100 clear 0x0000 [(1, 0x0F0F), (2, 0x01F0)] [(0x0200, 0xF0)]))
    (fun t => (t.reg 1, t.fr.OF, t.fr.SF, t.fr.ZF, t.fr.AF, t.fr.CF)) = some (0xF0FF, false, true, false, true, false) := by decide

/-- 41_arith.md R280, its example. -/
theorem test_cmpInd : after (exec (.cmpInd 1 2)
    (start 0x0100 clear 0x0000 [(1, 0x1234), (2, 0x0200)] [(0x0200, 0x12), (0x0201, 0x34)]))
    (fun t => (t.fr.OF, t.fr.SF, t.fr.ZF, t.fr.AF, t.fr.CF)) = some (false, false, true, false, false) := by decide

/-- 41_arith.md R283, its example. -/
theorem test_cmpbBased : after (exec (.cmpbBased 1 2 0x0010)
    (start 0x0100 clear 0x0000 [(1, 0x0080), (2, 0x01F0)] [(0x0200, 0x80)]))
    (fun t => (t.fr.OF, t.fr.SF, t.fr.ZF, t.fr.AF, t.fr.CF)) = some (false, false, true, false, false) := by decide

/-- 41_arith.md R275, its example. -/
theorem test_cmpImm4 : after (exec (.cmpImm4 1 5)
    (start 0x0100 clear 0x0000 [(1, 0x0003)] []))
    (fun t => (t.fr.OF, t.fr.SF, t.fr.ZF, t.fr.AF, t.fr.CF)) = some (false, true, false, false, true) := by decide

/-- 43_shift_rotate.md R431, its example. -/
theorem test_shlRegImm16 : after (exec (.shlRegImm16 1 2 0x0002)
    (start 0x0100 clear 0x0000 [(2, 0x4002)] []))
    (fun t => (t.reg 1, t.fr.SF, t.fr.ZF, t.fr.AF, t.fr.CF)) = some (0x0008, false, false, false, true) := by decide

/-- 43_shift_rotate.md R433, its example. -/
theorem test_shlBased : after (exec (.shlBased 1 2 0xFFFC)
    (start 0x0100 clear 0x0000 [(1, 0xFFFF), (2, 0x0204)] [(0x0200, 0x00), (0x0201, 0x11)]))
    (fun t => (t.reg 1, t.fr.SF, t.fr.ZF, t.fr.AF, t.fr.CF)) = some (0x0000, false, true, false, false) := by decide

/-- 43_shift_rotate.md R427, its example. -/
theorem test_shlXaf : after (exec (.shlXaf 1)
    (start 0x0100 { clear with AF := true } 0x0000 [(1, 0x8001)] []))
    (fun t => (t.reg 1, t.fr.SF, t.fr.ZF, t.fr.AF, t.fr.CF)) = some (0x0000, false, true, true, false) := by decide

/-- 43_shift_rotate.md R436, its example. -/
theorem test_shrReg : after (exec (.shrReg 1 2)
    (start 0x0100 clear 0x0000 [(1, 0x8001), (2, 0x0004)] []))
    (fun t => (t.reg 1, t.fr.SF, t.fr.ZF, t.fr.AF, t.fr.CF)) = some (0x0800, false, false, false, false) := by decide

/-- 43_shift_rotate.md R441, its example. -/
theorem test_shrRegImm16 : after (exec (.shrRegImm16 1 2 0x0002)
    (start 0x0100 clear 0x0000 [(2, 0x4002)] []))
    (fun t => (t.reg 1, t.fr.SF, t.fr.ZF, t.fr.AF, t.fr.CF)) = some (0x1000, false, false, false, true) := by decide

/-- 43_shift_rotate.md R443, its example. -/
theorem test_shrBased : after (exec (.shrBased 1 2 0xFFFC)
    (start 0x0100 clear 0x0000 [(1, 0xFFFF), (2, 0x0204)] [(0x0200, 0x00), (0x0201, 0x11)]))
    (fun t => (t.reg 1, t.fr.SF, t.fr.ZF, t.fr.AF, t.fr.CF)) = some (0x0000, false, true, false, false) := by decide

/-- 43_shift_rotate.md R385, its example. -/
theorem test_asrImm4 : after (exec (.asrImm4 1 1)
    (start 0x0100 clear 0x0000 [(1, 0x8001)] []))
    (fun t => (t.reg 1, t.fr.SF, t.fr.ZF, t.fr.AF, t.fr.CF)) = some (0xC000, true, false, false, true) := by decide

/-- 43_shift_rotate.md R388, its example. -/
theorem test_asrbInd : after (exec (.asrbInd 1 2)
    (start 0x0100 clear 0x0000 [(1, 0x00F0), (2, 0x0200)] [(0x0200, 0x04)]))
    (fun t => (t.reg 1, t.fr.SF, t.fr.ZF, t.fr.AF, t.fr.CF)) = some (0x000F, false, false, false, false) := by decide

/-- 43_shift_rotate.md R390, its example. -/
theorem test_asrImm16 : after (exec (.asrImm16 1 0x000F)
    (start 0x0100 clear 0x0000 [(1, 0x8001)] []))
    (fun t => (t.reg 1, t.fr.SF, t.fr.ZF, t.fr.AF, t.fr.CF)) = some (0xFFFF, true, false, false, false) := by decide

/-- 43_shift_rotate.md R407, its example. -/
theorem test_rorXaf : after (exec (.rorXaf 1)
    (start 0x0100 { clear with AF := true } 0x0000 [(1, 0x8001)] []))
    (fun t => (t.reg 1, t.fr.SF, t.fr.ZF, t.fr.AF, t.fr.CF)) = some (0x0003, false, false, true, false) := by decide

/-- 43_shift_rotate.md R409, its example. -/
theorem test_rorInd : after (exec (.rorInd 1 2)
    (start 0x0100 clear 0x0000 [(1, 0x1234), (2, 0x0200)] [(0x0200, 0x00), (0x0201, 0x08)]))
    (fun t => (t.reg 1, t.fr.SF, t.fr.ZF, t.fr.AF, t.fr.CF)) = some (0x3412, false, false, false, false) := by decide

/-- 43_shift_rotate.md R412, its example. -/
theorem test_rorbBased : after (exec (.rorbBased 1 2 0x0010)
    (start 0x0100 clear 0x0000 [(1, 0x8000), (2, 0x01F0)] [(0x0200, 0x10)]))
    (fun t => (t.reg 1, t.fr.SF, t.fr.ZF, t.fr.AF, t.fr.CF)) = some (0x8000, true, false, false, true) := by decide

/-- 43_shift_rotate.md R401, its example. -/
theorem test_rlcRegImm16 : after (exec (.rlcRegImm16 1 2 0x0002)
    (start 0x0100 { clear with CF := true } 0x0000 [(2, 0x4002)] []))
    (fun t => (t.reg 1, t.fr.SF, t.fr.ZF, t.fr.AF, t.fr.CF)) = some (0x000A, false, false, false, true) := by decide

/-- 43_shift_rotate.md R403, its example. -/
theorem test_rlcBased : after (exec (.rlcBased 1 2 0xFFFC)
    (start 0x0100 { clear with CF := true } 0x0000 [(1, 0xFFFF), (2, 0x0204)] [(0x0200, 0x00), (0x0201, 0x11)]))
    (fun t => (t.reg 1, t.fr.SF, t.fr.ZF, t.fr.AF, t.fr.CF)) = some (0xFFFF, true, false, false, true) := by decide

/-- 43_shift_rotate.md R397, its example. -/
theorem test_rlcXaf : after (exec (.rlcXaf 1)
    (start 0x0100 { clear with CF := true, AF := true } 0x0000 [(1, 0x8001)] []))
    (fun t => (t.reg 1, t.fr.SF, t.fr.ZF, t.fr.AF, t.fr.CF)) = some (0x8001, true, false, true, true) := by decide

/-- 43_shift_rotate.md R420, its example. -/
theorem test_rrcImm16 : after (exec (.rrcImm16 1 0x000F)
    (start 0x0100 { clear with CF := true } 0x0000 [(1, 0x8001)] []))
    (fun t => (t.reg 1, t.fr.SF, t.fr.ZF, t.fr.AF, t.fr.CF)) = some (0x0007, false, false, false, false) := by decide

/-- 43_shift_rotate.md R416, its example. -/
theorem test_rrcReg : after (exec (.rrcReg 1 2)
    (start 0x0100 { clear with CF := true } 0x0000 [(1, 0x8001), (2, 0x0004)] []))
    (fun t => (t.reg 1, t.fr.SF, t.fr.ZF, t.fr.AF, t.fr.CF)) = some (0x3800, false, false, false, false) := by decide

/-- 43_shift_rotate.md R421, its example. -/
theorem test_rrcRegImm16 : after (exec (.rrcRegImm16 1 2 0x0002)
    (start 0x0100 { clear with CF := true } 0x0000 [(2, 0x4002)] []))
    (fun t => (t.reg 1, t.fr.SF, t.fr.ZF, t.fr.AF, t.fr.CF)) = some (0x5000, false, false, false, true) := by decide

/-- 40_move_store.md R200, its example. -/
theorem test_mhr : after (exec (.mhr 3 0)
    (start 0x0100 clear 0x1234 [] []))
    (fun t => t.reg 3) = some (0x1234) := by decide

/-- 40_move_store.md R213, its example. -/
theorem test_stbInd : after (exec (.stbInd 1 2)
    (start 0x0100 clear 0x0000 [(1, 0xABCD), (2, 0x0200)] [(0x0200, 0x11), (0x0201, 0x22)]))
    (fun t => (t.byteAt 0x0200, t.byteAt 0x0201)) = some (some 0xCD, some 0x22) := by decide

/-- 40_move_store.md R214, its example. -/
theorem test_stInd : after (exec (.stInd 1 2)
    (start 0x0100 clear 0x0000 [(1, 0xABCD), (2, 0x0200)] []))
    (fun t => (t.byteAt 0x0200, t.byteAt 0x0201)) = some (some 0xAB, some 0xCD) := by decide

/-- 40_move_store.md R215, its example. -/
theorem test_stbBased : after (exec (.stbBased 1 2 0x0010)
    (start 0x0100 clear 0x0000 [(1, 0xABCD), (2, 0x0200)] [(0x0210, 0x33), (0x0211, 0x44)]))
    (fun t => (t.byteAt 0x0210, t.byteAt 0x0211)) = some (some 0xCD, some 0x44) := by decide

/-- 40_move_store.md R216, its example. -/
theorem test_stBased : after (exec (.stBased 1 2 0x0010)
    (start 0x0100 clear 0x0000 [(1, 0xABCD), (2, 0x0200)] []))
    (fun t => (t.byteAt 0x0210, t.byteAt 0x0211)) = some (some 0xAB, some 0xCD) := by decide

/-- 41_arith.md R287, its example. -/
theorem test_inc : after (exec (.inc 1)
    (start 0x0100 clear 0x0000 [(1, 0xFFFF)] []))
    (fun t => (t.reg 1, t.fr.OF, t.fr.SF, t.fr.ZF, t.fr.AF, t.fr.CF)) = some (0x0000, false, false, true, false, false) := by decide

/-- 41_arith.md R286, its example. -/
theorem test_dec : after (exec (.dec 1)
    (start 0x0100 clear 0x0000 [(1, 0x0000)] []))
    (fun t => (t.reg 1, t.fr.OF, t.fr.SF, t.fr.ZF, t.fr.AF, t.fr.CF)) = some (0xFFFF, false, true, false, false, false) := by decide

/-- 41_arith.md R288, its example. -/
theorem test_neg : after (exec (.neg 1)
    (start 0x0100 clear 0x0000 [(1, 0x0001)] []))
    (fun t => (t.reg 1, t.fr.OF, t.fr.SF, t.fr.ZF, t.fr.CF)) = some (0xFFFF, false, true, false, true) := by decide

/-- 42_logic.md R343, its example. -/
theorem test_not : after (exec (.not 1)
    (start 0x0100 { clear with CF := true, ZF := true } 0x0000 [(1, 0x00FF)] []))
    (fun t => (t.reg 1, t.fr.OF, t.fr.SF, t.fr.ZF, t.fr.AF, t.fr.CF)) = some (0xFF00, false, false, true, false, true) := by decide

/-- 44_multiply.md R461, its example. -/
theorem test_mulu : after (exec (.mulu 1 2)
    (start 0x0100 clear 0x0000 [(1, 0x1234), (2, 0x0010)] []))
    (fun t => (t.reg 1, t.hr0, t.fr.SF, t.fr.ZF, t.fr.CF)) = some (0x2340, 0x0001, false, false, true) := by decide

/-- 44_multiply.md R460, its example. -/
theorem test_muls : after (exec (.muls 1 2)
    (start 0x0100 clear 0x0000 [(1, 0xFFFF), (2, 0xFFFF)] []))
    (fun t => (t.reg 1, t.hr0, t.fr.SF, t.fr.ZF, t.fr.CF)) = some (0x0001, 0x0000, false, false, false) := by decide

/-- 45_control.md R472, its example. -/
theorem test_call : after (exec (.call 0x0040)
    (start 0x0100 clear 0x0000 [(15, 0x8000)] []))
    (fun t => (t.reg 15, t.byteAt 0x7FFE, t.byteAt 0x7FFF, t.pc)) = some (0x7FFE, some 0x01, some 0x04, 0x0142) := by decide

/-- 45_control.md R473, its example. -/
theorem test_calla : after (exec (.calla 0x0010)
    (start 0x0100 clear 0x0000 [(15, 0x8000)] []))
    (fun t => (t.reg 15, t.byteAt 0x7FFE, t.byteAt 0x7FFF, t.pc)) = some (0x7FFE, some 0x01, some 0x04, 0x0010) := by decide

/-- 45_control.md R474, its example. -/
theorem test_calli : after (exec (.calli 3)
    (start 0x0100 clear 0x0000 [(3, 0x0400), (15, 0x8000)] []))
    (fun t => (t.reg 15, t.byteAt 0x7FFE, t.byteAt 0x7FFF, t.pc)) = some (0x7FFE, some 0x01, some 0x02, 0x0400) := by decide

/-- 45_control.md R489, its example. -/
theorem test_jmp : after (exec (.jmp 0x0010)
    (start 0x0100 clear 0x0000 [] []))
    (fun t => t.pc) = some (0x0112) := by decide

/-- 45_control.md R490, its example. -/
theorem test_jmpa : after (exec (.jmpa 0x1234)
    (start 0x0100 clear 0x0000 [] []))
    (fun t => t.pc) = some (0x1234) := by decide

/-- 45_control.md R491, its example. -/
theorem test_jmpi : after (exec (.jmpi 3)
    (start 0x0100 clear 0x0000 [(3, 0x0401)] []))
    (fun t => t.pc) = some (0x0401) := by decide

/-- 45_control.md R492, its example. -/
theorem test_ret : after (exec (.ret)
    (start 0x0100 clear 0x0000 [(15, 0x7FFE)] [(0x7FFE, 0x01), (0x7FFF, 0x04)]))
    (fun t => (t.reg 15, t.pc)) = some (0x8000, 0x0104) := by decide

/-- 47_system.md R535, its example. -/
theorem test_reti : after (exec (.reti)
    (start 0x0100 clear 0x0000 [(15, 0x7FFE)] [(0x7FFE, 0x02), (0x7FFF, 0x34)]))
    (fun t => (t.reg 15, t.fr.IF, t.pc)) = some (0x8000, true, 0x0234) := by decide

/-- 46_stack_flags.md R513, its example. -/
theorem test_push : after (exec (.push 1)
    (start 0x0100 clear 0x0000 [(1, 0xBEEF), (15, 0x8000)] []))
    (fun t => (t.reg 15, t.byteAt 0x7FFE, t.byteAt 0x7FFF)) = some (0x7FFE, some 0xBE, some 0xEF) := by decide

/-- 46_stack_flags.md R511, its example. -/
theorem test_pop : after (exec (.pop 1)
    (start 0x0100 clear 0x0000 [(15, 0x7FFE)] [(0x7FFE, 0x12), (0x7FFF, 0x34)]))
    (fun t => (t.reg 1, t.reg 15)) = some (0x1234, 0x8000) := by decide

/-- 46_stack_flags.md R514, its example. -/
theorem test_pushf : after (exec (.pushf)
    (start 0x0100 { clear with IF := true, OF := true, ZF := true, CF := true } 0x0000 [(15, 0x8000)] []))
    (fun t => (t.reg 15, t.byteAt 0x7FFE, t.byteAt 0x7FFF)) = some (0x7FFE, some 0x01, some 0x15) := by decide

/-- 46_stack_flags.md R512, its example. -/
theorem test_popf : after (exec (.popf)
    (start 0x0100 clear 0x0000 [(15, 0x7FFE)] [(0x7FFE, 0x01), (0x7FFF, 0x15)]))
    (fun t => (t.reg 15, t.fr.IF, t.fr.OF, t.fr.SF, t.fr.ZF, t.fr.AF)) = some (0x8000, true, true, false, true, false) := by decide

/-- 46_stack_flags.md R515, its example. -/
theorem test_clc : after (exec (.clc)
    (start 0x0100 { clear with CF := true, ZF := true } 0x0000 [] []))
    (fun t => (t.fr.CF, t.fr.ZF)) = some (false, true) := by decide

/-- 46_stack_flags.md R517, its example. -/
theorem test_stc : after (exec (.stc)
    (start 0x0100 { clear with ZF := true } 0x0000 [] []))
    (fun t => (t.fr.CF, t.fr.ZF)) = some (true, true) := by decide

/-- 46_stack_flags.md R516, its example. -/
theorem test_cli : after (exec (.cli)
    (start 0x0100 { clear with IF := true, CF := true } 0x0000 [] []))
    (fun t => (t.fr.IF, t.fr.CF)) = some (false, true) := by decide

/-- 46_stack_flags.md R518, its example. -/
theorem test_sti : after (exec (.sti)
    (start 0x0100 { clear with CF := true } 0x0000 [] []))
    (fun t => (t.fr.IF, t.fr.CF)) = some (true, true) := by decide

/-- 47_system.md R534, its example. -/
theorem test_nop : after (exec (.nop)
    (start 0x0100 clear 0x0000 [] []))
    (fun t => t.pc) = some (0x0102) := by decide

/-- 45_control.md R475, its example. -/
theorem test_jz : after (exec (.jz 0x0020)
    (start 0x0100 { clear with ZF := true } 0x0000 [] []))
    (fun t => t.pc) = some (0x0122) := by decide

/-- 45_control.md R476, its example. -/
theorem test_jnz : after (exec (.jnz 0x0020)
    (start 0x0100 clear 0x0000 [] []))
    (fun t => t.pc) = some (0x0122) := by decide

/-- 45_control.md R477, its example. -/
theorem test_jc : after (exec (.jc 0x0020)
    (start 0x0100 { clear with CF := true } 0x0000 [] []))
    (fun t => t.pc) = some (0x0122) := by decide

/-- 45_control.md R478, its example. -/
theorem test_jnc : after (exec (.jnc 0x0020)
    (start 0x0100 clear 0x0000 [] []))
    (fun t => t.pc) = some (0x0122) := by decide

/-- 45_control.md R479, its example. -/
theorem test_js : after (exec (.js 0x0020)
    (start 0x0100 { clear with SF := true } 0x0000 [] []))
    (fun t => t.pc) = some (0x0122) := by decide

/-- 45_control.md R480, its example. -/
theorem test_jns : after (exec (.jns 0x0020)
    (start 0x0100 clear 0x0000 [] []))
    (fun t => t.pc) = some (0x0122) := by decide

/-- 45_control.md R481, its example. -/
theorem test_jo : after (exec (.jo 0x0020)
    (start 0x0100 { clear with OF := true } 0x0000 [] []))
    (fun t => t.pc) = some (0x0122) := by decide

/-- 45_control.md R482, its example. -/
theorem test_jno : after (exec (.jno 0x0020)
    (start 0x0100 clear 0x0000 [] []))
    (fun t => t.pc) = some (0x0122) := by decide

/-- 45_control.md R483, its example. -/
theorem test_jge : after (exec (.jge 0x0020)
    (start 0x0100 { clear with SF := true, OF := true } 0x0000 [] []))
    (fun t => t.pc) = some (0x0122) := by decide

/-- 45_control.md R484, its example. -/
theorem test_jlt : after (exec (.jlt 0x0020)
    (start 0x0100 { clear with OF := true } 0x0000 [] []))
    (fun t => t.pc) = some (0x0122) := by decide

/-- 45_control.md R485, its example. -/
theorem test_jgt : after (exec (.jgt 0x0020)
    (start 0x0100 { clear with SF := true, OF := true } 0x0000 [] []))
    (fun t => t.pc) = some (0x0122) := by decide

/-- 45_control.md R486, its example. -/
theorem test_jle : after (exec (.jle 0x0020)
    (start 0x0100 { clear with ZF := true } 0x0000 [] []))
    (fun t => t.pc) = some (0x0122) := by decide

/-- 45_control.md R487, its example. -/
theorem test_jat : after (exec (.jat 0x0020)
    (start 0x0100 clear 0x0000 [] []))
    (fun t => t.pc) = some (0x0122) := by decide

/-- 45_control.md R488, its example. -/
theorem test_jbe : after (exec (.jbe 0x0020)
    (start 0x0100 { clear with ZF := true } 0x0000 [] []))
    (fun t => t.pc) = some (0x0122) := by decide

/-- 46_stack_flags.md R513, R511, its examples for R15. -/
theorem test_push_r15 : after (exec (.push 15) (start 0x0100 clear 0 [(15, 0x8000)] []))
    (fun t => (t.reg 15, t.wordAt 0x7FFE)) = some (0x7FFE, some 0x7FFE) := by decide

theorem test_pop_r15 : after (exec (.pop 15) (start 0x0100 clear 0 [(15, 0x7FFE)] [(0x7FFE, 0x12), (0x7FFF, 0x34)]))
    (fun t => t.reg 15) = some 0x1236 := by decide

/-- 45_control.md R496. -/
theorem test_calli_r15 : after (exec (.calli 15) (start 0x0100 clear 0 [(15, 0x8000)] []))
    (fun t => (t.pc, t.wordAt 0x7FFE)) = some (0x7FFE, some 0x0102) := by decide

/-- 10_state.md R21: the destination R0 discards the value, the flags are written. -/
theorem test_sub_r0 : after (exec (.subReg 0 1) (start 0x0100 clear 0 [(1, 1)] []))
    (fun t => (t.reg 0, t.fr.CF, t.fr.SF)) = some (0, true, true) := by decide

/-- 47_system.md R531, its example: only the pc changes, and the record of cleared blocks. -/
theorem test_ccbInd : after (exec (.ccbInd 2) (start 0x0100 clear 0 [(2, 0x1234)] []))
    (fun t => (t.pc, t.icacheCleared, t.dcacheCleared)) = some (0x0102, [0x1234], [0x1234]) := by decide

theorem test_ccbBased : after (exec (.ccbBased 2 0x0010) (start 0x0100 clear 0 [(2, 0x1234)] []))
    (fun t => (t.pc, t.icacheCleared)) = some (0x0104, [0x1244]) := by decide

/-- 47_system.md R533, its example. -/
theorem test_irc : after (exec (.irc 0x0040) (start 0x0234 { clear with IF := true, CF := true } 0 [(15, 0x8000)] []))
    (fun t => (t.reg 15, t.wordAt 0x7FFE, t.fr, t.pc)) =
      some (0x7FFE, some 0x0234, { clear with CF := true }, 0x0040) := by decide

/-- 40_move_store.md R200: hidden register 1 does not exist. -/
theorem test_mhr_1 : refusal (exec (.mhr 3 1) (start 0x0100 clear 0 [] [])) = some (.undefinedHiddenRegister 1) := by decide

/-- 70_reset_and_hazards.md R700: a byte without a value. -/
theorem test_unwritten_load : faultOf (exec (.movInd 1 2) (start 0x0100 clear 0 [(2, 0x0200)] [(0x0200, 0x12)])) =
    some (.unwrittenMemory 0x0201) := by decide

/-! ### Steps -/

/-- 20_memory.md R66, R67: a long instruction at the odd address 0xFFFD takes its last byte from 0x0000. -/
theorem test_step_wraps : after (step (start 0xFFFD clear 0 [] [(0xFFFD, 0x80), (0xFFFE, 0x10), (0xFFFF, 0x12), (0x0000, 0x34)]))
    (fun t => (t.reg 1, t.pc)) = some (0x1234, 0x0001) := by decide

/-- 95_test_vectors.md V901: an asserted request with IF set. -/
theorem test_interrupt_taken :
    after (step ((start 0x0106 { clear with IF := true, CF := true } 0 [(15, 0x8000)] []).withIrq [some 0x0040, none]))
      (fun t => (t.reg 15, t.wordAt 0x7FFE, t.fr, t.pc, t.irq)) =
      some (0x7FFE, some 0x0106, { clear with CF := true }, 0x0040, [none]) := by decide

/-- 95_test_vectors.md V902: the same request with IF clear; the NOP at the pc runs. -/
theorem test_interrupt_masked :
    after (step ((start 0x0106 clear 0 [(15, 0x8000)] [(0x0106, 0), (0x0107, 0)]).withIrq [some 0x0040]))
      (fun t => (t.reg 15, t.pc, t.irq)) = some (0x8000, 0x0108, []) := by decide

/-- 30_encoding.md R121, R123, 20_memory.md R76: what the fetch refuses. -/
theorem test_fetch_refuses_unassigned :
    refusal (step (start 0x0100 clear 0 [] [(0x0100, 0x9F), (0x0101, 0x10)])) = some (.unassignedOpcode 0x9F10) := by decide

theorem test_fetch_refuses_irc :
    refusal (step (start 0x0100 clear 0 [] [(0x0100, 0xA8), (0x0101, 0x0F)])) = some .ircFetched := by decide

theorem test_fetch_refuses_written_byte :
    refusal (step ((start 0x0100 clear 0 [] [(0x0100, 0x00)]).storeByte 0x0101 0x00)) =
      some (.fetchOfWrittenByte 0x0101) := by decide

/-- The instruction placed by withFetchWord is the one the next step runs, even where a request would be taken. -/
theorem test_withFetchWord : after (step (State.reset.withFetchWord 32 0x12348010)) (fun t => (t.reg 1, t.pc)) =
    some (0x1234, 0x0004) := by decide

theorem test_withFetchWord_no_request :
    after (step (((start 0x0100 { clear with IF := true } 0 [] []).withIrq [some 0x0040]).withFetchWord 16 0x1015))
      (fun t => (t.reg 1, t.irq)) = some (5, []) := by decide

/-! ### Parameters other than the defaults (00_scope.md R6) -/

/-- The same state on a platform with other parameters. -/
def on (p : Config.Params) (s : State) : State := { s with params := p }

/-- 41_arith.md R287 with `INCDEC_CF = arith`: 0xFFFF + 1 carries out. -/
theorem test_inc_arith : after (exec (.inc 1) (on { incDecCf := .arith } (start 0x0100 clear 0 [(1, 0xFFFF)] [])))
    (fun t => (t.reg 1, t.fr.CF, t.fr.ZF)) = some (0, true, true) := by decide

/-- 92_eei_decisions.md D5: with `IMM4_EXT = sign` the immediate 15 is -1 and sets AF. -/
theorem test_imm4_sign : after (exec (.addImm4 1 15) (on { imm4Ext := .sign } (start 0x0100 clear 0 [(1, 3)] [])))
    (fun t => (t.reg 1, t.fr.AF, t.fr.CF)) = some (2, true, true) := by decide

/-- 43_shift_rotate.md R380: a count of 17 masked to four bits is 1. -/
theorem test_shift_mask : after (exec (.shlReg 1 2) (on { shiftCount := .mask 0x000F } (start 0x0100 clear 0 [(1, 0x8001), (2, 17)] [])))
    (fun t => (t.reg 1, t.fr.CF)) = some (2, true) := by decide

/-- 20_memory.md R66 with `ALIGN_POLICY = refuse`. -/
theorem test_align_refuse : refusal (exec (.stInd 1 2) (on { alignPolicy := .refuse } (start 0x0100 clear 0 [(2, 0x0201)] []))) =
    some (.misalignedAccess 0x0201) := by decide

/-- 40_move_store.md R200 with `HR_COUNT = 2`. -/
theorem test_mhr_second : after (exec (.mhr 3 1) (on { hrCount := 2 } (start 0x0100 clear 0 [(3, 7)] [])))
    (fun t => t.reg 3) = some 0 := by decide

/-- 10_state.md R36: `FR_RESERVED_READ` shows in the ten unnamed bits alone. -/
theorem test_pushf_reserved : after (exec .pushf (on { frReservedRead := 0xFFFF } (start 0x0100 clear 0 [(15, 0x8000)] [])))
    (fun t => t.wordAt 0x7FFE) = some (some 0xFEE0) := by decide

/-- RAM up to 0x7FFF, ROM up to 0xBFFF, a device up to 0xBFFF + 0x100, nothing above. -/
def mapped : Config.Params :=
  { memMap := [{ base := 0, size := 0x8000, kind := .ram }, { base := 0x8000, size := 0x4000, kind := .rom },
      { base := 0xC000, size := 0x100, kind := .device }] }

/-- 92_eei_decisions.md D31: a word stored over the end of RAM, its second byte lost in ROM. -/
theorem test_store_rom : after (exec (.stInd 1 2) (on mapped (start 0x0100 clear 0 [(1, 0xABCD), (2, 0x7FFF)] [(0x8000, 0x55)])))
    (fun t => (t.byteAt 0x7FFF, t.byteAt 0x8000, t.written)) = some (some 0xAB, some 0x55, [0x7FFF]) := by decide

/-- 93_implementation_defined.md U14. -/
theorem test_device_and_hole :
    refusal (exec (.movbInd 1 2) (on mapped (start 0x0100 clear 0 [(2, 0xC0FF)] []))) = some (.deviceAccess 0xC0FF) ∧
    refusal (exec (.push 1) (on mapped (start 0x0100 clear 0 [(15, 0)] []))) = some (.outsideMemoryMap 0xFFFE) := by decide

/-- 93_implementation_defined.md U15. -/
theorem test_ccb_refused : refusal (exec (.ccbInd 1) (on { cacheTransparent := false } (start 0x0100 clear 0 [] []))) =
    some .cacheNotTransparent := by decide

/-- 70_reset_and_hazards.md R701, R702. -/
theorem test_reset_parameters : (State.resetWith { resetPc := 0x0100, resetIf := true }).pc = 0x0100 ∧
    (State.resetWith { resetPc := 0x0100, resetIf := true }).fr.IF = true := by decide

/-! ### Witnesses: for each statement with hypotheses, a state and operands that meet all of them -/

/-- R1 = 0x8001, R2 = 0x0200, R15 = 0x7FFE, bytes at 0x0200 and 0x7FFE. -/
def sample : State := start 0x0100 { clear with CF := true, AF := true } 0x1234 [(1, 0x8001), (2, 0x0200), (15, 0x7FFE)]
  [(0x0200, 0x80), (0x0201, 0x11), (0x7FFE, 0x01), (0x7FFF, 0x15)]

theorem witness_ZeroRegisterAndRegisterFile : (1 : RegNum) ≠ 0 ∧ (2 : RegNum) ≠ 1 := by decide

theorem witness_MovCopiesOperandInEveryForm :
    (AluForm.sbyteInd 1 2).instr .mov = some (.movsInd 1 2) ∧ (AluForm.sbyteInd 1 2).second sample = some 0xFF80 := by decide

theorem witness_AddInEveryForm :
    (AluForm.wordBased 1 2 0).instr .add = some (.addBased 1 2 0) ∧
    (AluForm.wordBased 1 2 0).second sample = some 0x8011 := by decide

theorem witness_AdcInEveryForm :
    (AluForm.xaf 1).instr .adc = some (.adcXaf 1) ∧ (AluForm.xaf 1).second sample = some 0xFFFF := by decide

theorem witness_SubInEveryForm :
    (AluForm.regImm16 0 1 0xFFFF).instr .sub = some (.subRegImm16 0 1 0xFFFF) ∧
    (AluForm.regImm16 0 1 0xFFFF).second sample = some 0xFFFF := by decide

theorem witness_SbbInEveryForm :
    (AluForm.byteInd 1 2).instr .sbb = some (.sbbbInd 1 2) ∧ (AluForm.byteInd 1 2).second sample = some 0x0080 := by decide

theorem witness_CmpWritesOnlyFlagsInEveryForm :
    (AluForm.imm4 1 15).instr .cmp = some (.cmpImm4 1 15) ∧ (AluForm.imm4 1 15).second sample = some 0x000F := by decide

theorem plain_takesWord {s : State} (h : s.params = Config.specDefaults) (a : Word) : s.takesWord a := by
  have k : ∀ x : Word, s.kindAt x = some .ram := fun x => by
    have hx := x.isLt
    simp only [State.kindAt, h]
    simp [Config.specDefaults, kindIn, hx]
  exact ⟨by simp [State.misaligned, h, Config.specDefaults], k a, k (a + 1)⟩

theorem witness_ReadsWithoutAValueStop_plainMemory : sample.plainMemory :=
  ⟨by decide, fun a => (plain_takesWord (s := sample) (by decide) a).2.1⟩

theorem witness_ReadsWithoutAValueStop_stops :
    sample.ByteStop 0x0202 (.fault (.unwrittenMemory 0x0202) : Result State) ∧
    sample.WordStop 0x0202 (.fault (.unwrittenMemory 0x0202) : Result State) ∧
    sample.WordStop 0x0201 (.fault (.unwrittenMemory 0x0202) : Result State) :=
  ⟨.inl ⟨by decide, by decide, rfl⟩, .inr ⟨by decide, .inl (.inl ⟨by decide, by decide, rfl⟩)⟩,
    .inr ⟨by decide, .inr ⟨by decide, .inl ⟨by decide, by decide, rfl⟩⟩⟩⟩

theorem witness_ReadsWithoutAValueStop :
    (AluForm.wordInd 1 2).instr .add = some (.addInd 1 2) ∧
    (AluForm.wordInd 1 2).second (start 0 clear 0 [(2, 0x0200)] [(0x0200, 0x80)]) = none ∧
    (start 0 clear 0 [(15, 0x7FFE)] [(0x7FFF, 0x80)]).wordAt 0x7FFE = none ∧
    (start 0 clear 0 [(15, 0x7FFE)] [(0x7FFF, 0x80)]).reg 15 = 0x7FFE := by decide

theorem witness_AndInEveryForm :
    (AluForm.reg 1 1).instr .and = some (.andReg 1 1) ∧ (AluForm.reg 1 1).second sample = some 0x8001 := by decide

theorem witness_OrXorInEveryForm :
    (AluForm.sbyteBased 1 2 1).instr .or = some (.orsBased 1 2 1) ∧
    (AluForm.sbyteBased 1 2 1).instr .xor = some (.xorsBased 1 2 1) ∧
    (AluForm.sbyteBased 1 2 1).second sample = some 0x0011 := by decide

theorem witness_ShiftsRepeatTheStepInEveryForm :
    AluOp.shifts .rlc = true ∧ (AluForm.byteBased 1 2 1).instr .rlc = some (.rlcbBased 1 2 1) ∧
    (AluForm.byteBased 1 2 1).second sample = some 17 := by decide

theorem witness_MhrReadsTheHiddenRegistersThatExist :
    (1 : Nibble) ≠ 0 ∧ sample.params.hrCount ≤ (1 : Nibble).toNat ∧
    (15 : Nibble).toNat < (on { hrCount := 16 } sample).params.hrCount := by decide

theorem witness_ByteStoresWriteOneByte : sample.kindAt (sample.reg 2) = some .ram ∧
    sample.kindAt (sample.based 2 0xFFFF) = some .ram := by decide

/-- The premise on the address of WordStoresAreBigEndian, StoredWordReadsBack and, for R15 - 2, of the calls, the pushes and the
interrupt entry. -/
theorem witness_takesWord : sample.takesWord (sample.reg 2) ∧ sample.takesWord (sample.based 2 0xFDFF) ∧
    sample.takesWord (sample.reg 15 - 2) := by decide

/-- R2 in ROM, at a device, outside the map; R15 - 2 the same. -/
theorem witness_StoresOutsideRamAreLostOrRefused :
    (on mapped sample).kindAt 0xBFFF = some .rom ∧ (on mapped sample).kindAt 0xC000 = some .device ∧
    (on mapped sample).kindAt 0xC100 = none ∧ (on mapped sample).kindAt 0xFFFF = none ∧
    (on mapped sample).readable 0xBFFE = true ∧ (on mapped sample).readable 0xBFFF = true ∧
    (on mapped sample).misaligned 0xBFFF = false ∧ (on { alignPolicy := .refuse } sample).misaligned 0xFFFF = true := by
  decide

theorem witness_CcbChangesNothingVisible : sample.params.cacheTransparent = true ∧
    (on { cacheTransparent := false } sample).params.cacheTransparent = false := by decide

theorem witness_StoredWordReadsBack : (3 : RegNum) ≠ 0 ∧ sample.takesWord (sample.reg 2) := by decide

theorem witness_CompareThenBranch :
    (AluForm.imm16 1 0x8001).instr .cmp = some (.cmpImm16 1 0x8001) ∧
    (AluForm.imm16 1 0x8001).second sample = some 0x8001 := by decide

theorem witness_ReturnsPopThePc : sample.wordAt (sample.reg 15) = some 0x0115 := by decide

theorem witness_PopLoadsFromTheStack : sample.wordAt (sample.reg 15) = some 0x0115 := by decide

theorem witness_PopfTakesTheFlags : sample.wordAt (sample.reg 15) = some 0x0115 := by decide

theorem witness_PopUndoesPush : (0 : RegNum) ≠ 15 ∧ (14 : RegNum) ≠ 15 ∧ sample.takesWord (sample.reg 15 - 2) := by decide

/-- A request is asserted at the next boundary, with IF set. -/
def requested : State := (sample.withFr { clear with IF := true }).withIrq [some 0x0040, none]

theorem witness_AssertedRequestIsTaken : requested.fr.IF = true ∧ requested.irq = some 0x0040 :: [none] ∧
    requested.takesWord (requested.reg 15 - 2) := by decide

theorem witness_InterruptThenRetiResumes : requested.fr.IF = true ∧ requested.irq = some 0x0040 :: [none] ∧
    requested.takesWord (requested.reg 15 - 2) := by decide

/-- `MOV R1, 5` at the pc, a request asserted, IF clear. -/
def masked : State := (start 0x0100 clear 0 [] [(0x0100, 0x10), (0x0101, 0x15)]).withIrq [some 0x0040]

theorem witness_MaskedRequestsHaveNoEffect :
    masked.fr.IF = false ∧ step masked = .next ((masked.pastBoundary.setReg 1 5).withPc 0x0102) := by
  constructor <;> rfl

theorem witness_OnlyFiveInstructionsChangeIF :
    exec .sti sample = .next ((sample.withIF true).withPc 0x0102) ∧
    ((sample.withIF true).withPc 0x0102).fr.IF ≠ sample.fr.IF := by
  constructor
  · rfl
  · decide

theorem witness_OnlyTheseWriteHr0 :
    ∃ t, exec (.mulu 1 2) sample = .next t ∧ t.hr ≠ sample.hr := ⟨_, rfl, by decide⟩

theorem witness_OnlyTheseWriteMemory :
    ∃ t, exec (.stbInd 1 2) sample = .next t ∧ t.byteAt 0x0200 ≠ sample.byteAt 0x0200 := ⟨_, rfl, by decide⟩

/-- 44_multiply.md R461 where `HR_COUNT` is 2: HR0 takes the high half of 0x8000 * 4, HR1 stays. -/
theorem test_mulu_hidden : after (exec (.mulu 1 2)
    { start 0x0100 clear 0 [(1, 0x8000), (2, 4)] [] with params := { hrCount := 2 }, hr := Vector.replicate 16 0x5A5A })
    (fun t => (t.hidden 0, t.hidden 1, t.reg 1)) = some (2, 0x5A5A, 0) := by decide

theorem witness_MultiplicationsKeepOtherHiddenRegisters : (1 : Nibble) ≠ 0 ∧ (15 : Nibble) ≠ 0 := by decide

/-- 45_control.md R472 with 92_eei_decisions.md D31: a call whose return address 0x0104 goes to the last byte of RAM and the first
of ROM. -/
theorem test_call_into_rom : after (exec (.call 0x0010) (on mapped (start 0x0100 clear 0 [(15, 0x8001)] [(0x8000, 0x55)])))
    (fun t => (t.pc, t.reg 15, t.byteAt 0x7FFF, t.byteAt 0x8000)) = some (0x0112, 0x7FFF, some 0x01, some 0x55) := by
  decide

theorem witness_StoresOutsideRamAreLostOrRefused_both :
    (on mapped sample).readable 0x7FFF = true ∧ (on mapped sample).readable 0x8000 = true ∧
    (on mapped sample).misaligned 0x7FFF = false ∧ (on mapped sample).kindAt 0x7FFF = some .ram ∧
    (on mapped sample).kindAt 0x8000 = some .rom ∧ (on { memMap := [{ base := 0xFFFF, size := 1, kind := .rom },
      { base := 0, size := 1, kind := .ram }] } sample).readable 0xFFFF = true := by decide

theorem witness_AddThenAdcAddsDoubleWords :
    (1 : RegNum) ≠ 0 ∧ (2 : RegNum) ≠ 0 ∧ (2 : RegNum) ≠ 1 ∧ (4 : RegNum) ≠ 1 := by decide

theorem witness_AddThenAdcXafAddsSignedWord : (1 : RegNum) ≠ 0 ∧ (2 : RegNum) ≠ 0 ∧ (2 : RegNum) ≠ 1 := by decide

theorem witness_DecodedInstructionsHaveTheirLength :
    decodeBytes [0x9E, 0x0F, 0xFF, 0xFE, 0x00] = .ok (.jmp 0xFFFE) [0x00] ∧
    decodeBytes [0x02, 0xF1, 0x33] = .ok .reti [0x33] := by decide

/-- The bytes `bs` at 0x0100, the pc. -/
def running (bs : List Byte) : State := (start 0x0100 clear 0 [(1, 0x0300), (15, 0x8000)] []).load 0x0100 bs

theorem witness_StepRunsTheDecodedInstruction_short :
    (running [0x04, 0x10]).accepted = none ∧ (running [0x04, 0x10]).imageAt 0x0100 [0x04, 0x10] ∧
    decodeBytes [0x04, 0x10] = .ok (.push 1) [] ∧ (Instr.push 1).notInternal = true :=
  ⟨by decide, ⟨by decide, by decide, by decide, by decide, trivial⟩, by decide, by decide⟩

theorem witness_StepRunsTheDecodedInstruction_long :
    (running [0xA1, 0x00, 0x00, 0x10]).accepted = none ∧
    (running [0xA1, 0x00, 0x00, 0x10]).imageAt 0x0100 [0xA1, 0x00, 0x00, 0x10] ∧
    decodeBytes [0xA1, 0x00, 0x00, 0x10] = .ok (.calla 0x0010) [] ∧ (Instr.calla 0x0010).notInternal = true :=
  ⟨by decide, ⟨by decide, by decide, by decide, by decide, by decide, by decide, by decide, by decide, trivial⟩,
    by decide, by decide⟩

theorem witness_UnassignedAndInternalOpcodesRefused_unassigned :
    (running [0x59, 0x00]).accepted = none ∧ (running [0x59, 0x00]).imageAt 0x0100 [0x59, 0x00] ∧
    unassignedNibbles 5 9 0 0 = true :=
  ⟨by decide, ⟨by decide, by decide, by decide, by decide, trivial⟩, by decide⟩

theorem witness_UnassignedAndInternalOpcodesRefused_internal :
    (running [0xA8, 0x0F]).accepted = none ∧ (running [0xA8, 0x0F]).imageAt 0x0100 [0xA8, 0x0F] ∧
    (0x0F : Byte).toNat < 16 :=
  ⟨by decide, ⟨by decide, by decide, by decide, by decide, trivial⟩, by decide⟩

theorem witness_FetchOfWrittenBytesRefused_first :
    ((running []).storeByte 0x0100 0).accepted = none ∧ 0x0100 ∈ ((running []).storeByte 0x0100 0).written := by decide

theorem witness_FetchOfWrittenBytesRefused_second :
    ((running [0x00]).storeByte 0x0101 0).accepted = none ∧ ((running [0x00]).storeByte 0x0101 0).imageAt 0x0100 [0x00] ∧
    0x0101 ∈ ((running [0x00]).storeByte 0x0101 0).written :=
  ⟨by decide, ⟨by decide, by decide, trivial⟩, by decide⟩

theorem witness_FetchOfWrittenBytesRefused_third :
    ((running [0x80, 0x10]).storeByte 0x0102 0).accepted = none ∧ (0x80 : Byte).msb = true ∧
    decodeWords 0x8010 0 = some (.movImm16 1 0) ∧ (Instr.movImm16 1 0).notInternal = true ∧
    ((running [0x80, 0x10]).storeByte 0x0102 0).imageAt 0x0100 [0x80, 0x10] ∧
    0x0102 ∈ ((running [0x80, 0x10]).storeByte 0x0102 0).written :=
  ⟨by decide, by decide, by decide, by decide, ⟨by decide, by decide, by decide, by decide, trivial⟩, by decide⟩

theorem witness_FetchOfWrittenBytesRefused_fourth :
    ((running [0x80, 0x10, 0x12]).storeByte 0x0103 0).accepted = none ∧
    ((running [0x80, 0x10, 0x12]).storeByte 0x0103 0).imageAt 0x0100 [0x80, 0x10, 0x12] ∧
    0x0103 ∈ ((running [0x80, 0x10, 0x12]).storeByte 0x0103 0).written :=
  ⟨by decide, ⟨by decide, by decide, by decide, by decide, by decide, by decide, trivial⟩, by decide⟩

theorem witness_ReadsWithoutAValueStop_fetch1 :
    (running []).accepted = none ∧ (running []).misaligned 0x0100 = false ∧ 0x0100 ∉ (running []).written ∧
    (running []).byteRead 0x0100 = none := by decide

theorem witness_ReadsWithoutAValueStop_fetch2 :
    (running [0x80]).accepted = none ∧ (running [0x80]).imageAt 0x0100 [0x80] ∧ 0x0101 ∉ (running [0x80]).written ∧
    (running [0x80]).byteRead 0x0101 = none :=
  ⟨by decide, ⟨by decide, by decide, trivial⟩, by decide, by decide⟩

theorem witness_ReadsWithoutAValueStop_fetch3 :
    decodeWords (0x80#8 ++ 0x10#8) 0 = some (.movImm16 1 0) ∧ (running [0x80, 0x10]).imageAt 0x0100 [0x80, 0x10] ∧
    0x0102 ∉ (running [0x80, 0x10]).written ∧ (running [0x80, 0x10]).byteRead 0x0102 = none :=
  ⟨by decide, ⟨by decide, by decide, by decide, by decide, trivial⟩, by decide, by decide⟩

theorem witness_ReadsWithoutAValueStop_fetch4 :
    (running [0x80, 0x10, 0x12]).imageAt 0x0100 [0x80, 0x10, 0x12] ∧ 0x0103 ∉ (running [0x80, 0x10, 0x12]).written ∧
    (running [0x80, 0x10, 0x12]).byteRead 0x0103 = none :=
  ⟨⟨by decide, by decide, by decide, by decide, by decide, by decide, trivial⟩, by decide, by decide⟩

theorem witness_EndMarkerChangesNothing : (running [0x9E, 0x00, 0xFF, 0xFE]).atEnd := ⟨.inl (by decide), rfl⟩

/-- With IF set the marker is reached too when no request is driven any more, and not while one may still arrive
(70_reset_and_hazards.md R705). -/
theorem witness_EndMarker_enabled :
    (((running [0x9E, 0x00, 0xFF, 0xFE]).withIF true).withIrq [none, none]).atEnd :=
  ⟨.inr (show ∀ r ∈ ([none, none] : List (Option Word)), r = none by simp), rfl⟩

theorem test_not_atEnd_before_request :
    ¬ (((running [0x9E, 0x00, 0xFF, 0xFE]).withIF true).withIrq [none, some 0x0040]).atEnd := by
  rintro ⟨h | h, _⟩
  · exact absurd h (by decide)
  · exact absurd (h (some 0x0040) (by decide)) (by decide)

theorem witness_EveryStepKeepsTheInvariant :
    (running [0x04, 0x10]).Inv ∧ ∃ t, step (running [0x04, 0x10]) = .next t ∧ t.written = [0x7FFE, 0x7FFF] :=
  ⟨⟨by decide, by decide, by decide, by decide, by decide⟩, _, rfl, by decide⟩

theorem witness_DrawsReachOnlyUndefinedFlags :
    (∃ t, exec (.addReg 1 2) sample = .next t ∧ t.freeCount = sample.freeCount) ∧
    ∃ t, exec (.andReg 1 2) sample = .next t ∧ t.freeCount ≠ sample.freeCount :=
  ⟨⟨_, rfl, by decide⟩, ⟨_, rfl, by decide⟩⟩

theorem witness_JumpsWithN2 : (1 : Nibble) ≠ 0 ∧ (15 : Nibble) ≠ 0 ∧ decodeWords 0x9E10 0 = none := by decide

theorem witness_SecondNames : (Instr.jeq 0).primary = .jz 0 ∧ (Instr.stsInd 1 2).primary = .stbInd 1 2 := by decide

end Sys2Proof.Tests
end

section
/-! Stores, pushes, calls and the interrupt entry on any memory map (O23), and the state after reset (O59). A store of one
byte and a store of one word are each settled once, over the map alone; an instruction then only says where it stores, what
it does with R15 before, and which pc and flags it sets after.
-/
namespace Sys2Proof.Machine

/-! ### The halves of a word and the flag word, by their arithmetic -/

theorem hiByte_eq_shift (w : Word) : hiByte w = (w >>> 8).setWidth 8 := BitVec.setWidth_ushiftRight_eq_extractLsb.symm

theorem loByte_eq_setWidth (w : Word) : loByte w = w.setWidth 8 := rfl

/-- The six flags alone, without the bits of FR that hold no state. -/
theorem Flags.toNat_toWord_zero (f : Flags) :
    (f.toWord 0).toNat = carryNat f.IF * 256 + carryNat f.OF * 16 + carryNat f.SF * 8 + carryNat f.ZF * 4 +
      carryNat f.AF * 2 + carryNat f.CF := by
  obtain ⟨c, a, z, s, o, i⟩ := f
  revert c a z s o i
  decide

/-- No flag stands at one of the ten unnamed bits of FR (10_state.md R27, R36). -/
theorem Flags.toWord_zero_and_reserved (f : Flags) : f.toWord 0 &&& 0xFEE0 = 0 := by
  obtain ⟨c, a, z, s, o, i⟩ := f
  revert c a z s o i
  decide

/-- FR as PUSHF stores it, as a sum: the flags and the reserved bits do not overlap (92_eei_decisions.md D11). -/
theorem Flags.toNat_toWord (f : Flags) (r : Word) :
    (f.toWord r).toNat = carryNat f.IF * 256 + carryNat f.OF * 16 + carryNat f.SF * 8 + carryNat f.ZF * 4 +
      carryNat f.AF * 2 + carryNat f.CF + (r &&& 0xFEE0).toNat := by
  have whole : f.toWord r = f.toWord 0 ||| (r &&& 0xFEE0) := by simp [Flags.toWord]
  have apart : f.toWord 0 &&& (r &&& 0xFEE0) = 0 := by
    rw [BitVec.and_comm r, ← BitVec.and_assoc, Flags.toWord_zero_and_reserved]; exact BitVec.zero_and
  rw [whole, ← BitVec.add_eq_or_of_and_eq_zero _ _ apart, BitVec.toNat_add_of_and_eq_zero apart,
    Flags.toNat_toWord_zero]

/-! ### What a storing instruction does where its address says -/

/-- The instruction is refused for want of memory at `a`. -/
def RefusedAt (s : State) (i : Instr) (a : Word) : Prop :=
  (s.kindAt a = some .device → exec i s = .refused (.deviceAccess a)) ∧
  (s.kindAt a = none → exec i s = .refused (.outsideMemoryMap a))

/-- A byte store outside RAM: refused, or lost in ROM. -/
def StoresByte (s : State) (i : Instr) (a len : Word) : Prop :=
  RefusedAt s i a ∧ (s.kindAt a = some .rom → exec i s = .next { s with pc := s.pc + len })

/-- A store of the word `w` at `a` on any map, with R15, pc and flags as they are after it. -/
def StoresWord (s : State) (i : Instr) (a w r15 pc : Word) (fr : Flags) : Prop :=
  (s.misaligned a = true → exec i s = .refused (.misalignedAccess a)) ∧
  (s.misaligned a = false → RefusedAt s i a ∧
    (s.readable a = true → RefusedAt s i (a + 1) ∧
      (s.readable (a + 1) = true → ∃ t, exec i s = .next t ∧ t.reg 15 = r15 ∧ t.pc = pc ∧ t.fr = fr ∧ t.hr = s.hr ∧
        (s.kindAt a = some .ram → t.byteAt a = some ((w >>> 8).setWidth 8)) ∧
        (s.kindAt (a + 1) = some .ram → t.byteAt (a + 1) = some (w.setWidth 8)) ∧
        Frame [15] (s.inRam [a, a + 1]) s t)))

/-- Where a byte write is refused the byte store is, and where it is lost only the pc moves. -/
theorem storesByte_of_exec {s : State} {i : Instr} {rA : RegNum} {a len : Word}
    (h : exec i s = storeByteAt rA a len s) : StoresByte s i a len := by
  obtain ⟨device, outside⟩ := putByte_refused (s := s) (fun _ => rfl) a (loByte (s.reg rA))
  refine ⟨⟨fun k => ?_, fun k => ?_⟩, fun k => ?_⟩ <;> rw [h, storeByteAt, writeByte]
  · rw [device k, andThen_refused]
  · rw [outside k, andThen_refused]
  · rw [putByte_rom k, andThen_next]; rfl

section
variable {s u : State} {i : Instr} {a w : Word} {f : State → State}

/-- A word write after a change of R15 alone, whatever follows it, is refused where the word write on `s` would be. -/
theorem exec_refused_of_writeWord (hu : Frame [15] [] s u) (h : exec i s = andThen (writeWord u a w) fun t => .next (f t)) :
    (s.misaligned a = true → exec i s = .refused (.misalignedAccess a)) ∧
    (s.misaligned a = false → RefusedAt s i a ∧ (s.readable a = true → RefusedAt s i (a + 1))) := by
  have stops : ∀ {r}, writeWord u a w = .refused r → exec i s = .refused r := fun e => by rw [h, e, andThen_refused]
  have same : u.misaligned a = s.misaligned a := by simp only [State.misaligned, hu.params]
  obtain ⟨odd, even⟩ := writeWord_refused u a w
  simp only [same, kindAt_of_frame hu, readable_of_frame hu] at odd even
  refine ⟨fun m => stops (odd m), fun m => ?_⟩
  obtain ⟨device, outside, second⟩ := even m
  exact ⟨⟨fun k => stops (device k), fun k => stops (outside k)⟩, fun r =>
    ⟨fun k => stops ((second r).1 k), fun k => stops ((second r).2 k)⟩⟩

/-- An instruction that changes at most R15, then writes a word, then sets pc and flags, is a word store in the sense of
`StoresWord`. -/
theorem storesWord_of_writeWord {r15 pc : Word} {fr : Flags} (hu : Frame [15] [] s u) (hr : u.reg 15 = r15)
    (hpc : u.pc = s.pc) (hfr : u.fr = s.fr) (hhr : u.hr = s.hr)
    (h : exec i s = andThen (writeWord u a w) fun t => .next (f t))
    (hf : ∀ t : State, t.pc = s.pc → t.fr = s.fr → f t = { t with pc := pc, fr := fr }) :
    StoresWord s i a w r15 pc fr := by
  obtain ⟨odd, even⟩ := exec_refused_of_writeWord hu h
  refine ⟨odd, fun m => ⟨(even m).1, fun r => ⟨(even m).2 r, fun r' => ?_⟩⟩⟩
  have m' : u.misaligned a = false := by rw [← m]; simp only [State.misaligned, hu.params]
  obtain ⟨t, ht, hi, lo, tpc, tfr, thr, ft⟩ :=
    writeWord_of_readable m' ((readable_of_frame hu a).trans r) ((readable_of_frame hu (a + 1)).trans r') w
  simp only [kindAt_of_frame hu, State.inRam] at hi lo ft
  refine ⟨{ t with pc := pc, fr := fr }, ?_, (ft.registers 15 (by simp)).trans hr, rfl, rfl, thr.trans hhr,
    hiByte_eq_shift w ▸ hi, loByte_eq_setWidth w ▸ lo, (hu.trans ft).withPcFr pc fr⟩
  rw [h, ht, andThen_next, hf t (tpc.trans hpc) (tfr.trans hfr)]

end

/-- The two forms of ST: nothing before the store, the pc past the instruction after it. -/
theorem storesWord_of_storeWordAt {s : State} {i : Instr} {rA : RegNum} {a len : Word}
    (h : exec i s = storeWordAt rA a len s) : StoresWord s i a (s.reg rA) (s.reg 15) (s.pc + len) s.fr :=
  storesWord_of_writeWord (Frame.refl [15] s) rfl rfl rfl rfl h fun t hp hf => by rw [← hp, ← hf]; rfl

/-- An instruction that pushes `w` and then sets pc and flags (46_stack_flags.md R510). -/
theorem storesWord_of_push {s : State} {i : Instr} {w pc : Word} {fr : Flags} {f : State → State}
    (h : exec i s = andThen (push s w) fun t => .next (f t))
    (hf : ∀ t : State, t.pc = s.pc → t.fr = s.fr → f t = { t with pc := pc, fr := fr }) :
    StoresWord s i (s.reg 15 - 2) w (s.reg 15 - 2) pc fr :=
  storesWord_of_writeWord (decSp_frame s) (State.reg_decSp s 15) (by simp) (by simp) (by simp) h hf

/-- PUSH and PUSHF: the pc past the instruction, the flags as before. -/
theorem storesWord_of_push_advance {s : State} {i : Instr} {w len : Word}
    (h : exec i s = andThen (push s w) fun t => .next (t.advance len)) :
    StoresWord s i (s.reg 15 - 2) w (s.reg 15 - 2) (s.pc + len) s.fr :=
  storesWord_of_push h fun t hp hf => by rw [← hp, ← hf]; rfl

/-- The three calls: the pc at the target, the flags as before (45_control.md R472 to R474). -/
theorem storesWord_of_callTo {s : State} {i : Instr} {ret target : Word} (h : exec i s = callTo ret target s) :
    StoresWord s i (s.reg 15 - 2) ret (s.reg 15 - 2) target s.fr :=
  storesWord_of_push h fun t _ hf => by rw [← hf]; rfl

/-- IRC: the pc at the handler, IF cleared (47_system.md R533). -/
theorem storesWord_irc (s : State) (v : Word) :
    StoresWord s (.irc v) (s.reg 15 - 2) s.pc (s.reg 15 - 2) v { s.fr with IF := false } :=
  storesWord_of_push (f := fun t => (t.withIF false).withPc v) rfl fun t _ hf => by rw [← hf]; rfl

/-! ### The obligations -/

/-- Settles O23: each instruction is one byte store, one word store or one push followed by a change of pc and flags, and
those are settled over the map by `storesByte_of_exec` and `storesWord_of_writeWord`. -/
theorem storesOutsideRamAreLostOrRefused : Obligations.StoresOutsideRamAreLostOrRefused := by
  intro rA rB offs16 v s sp refusedAt storesByte storesWord
  have dec : s.decSp.reg rA = if rA = 15 then sp else s.reg rA := State.reg_decSp s rA
  have hpush : StoresWord s (.push rA) sp (s.decSp.reg rA) sp (s.pc + 2) s.fr := storesWord_of_push_advance rfl
  have hcalli : StoresWord s (.calli rA) sp (s.pc + 2) sp (s.decSp.reg rA) s.fr := storesWord_of_callTo rfl
  rw [dec] at hpush hcalli
  exact ⟨storesByte_of_exec (rA := rA) rfl, storesByte_of_exec (rA := rA) rfl, storesByte_of_exec (rA := rA) rfl,
    storesByte_of_exec (rA := rA) rfl, storesWord_of_storeWordAt rfl, storesWord_of_storeWordAt rfl, hpush,
    ⟨_, s.fr.toNat_toWord s.params.frReservedRead, storesWord_of_push_advance (i := .pushf) rfl⟩,
    storesWord_of_callTo (i := .call offs16) rfl, storesWord_of_callTo (i := .calla offs16) rfl, hcalli,
    storesWord_irc s v⟩

/-- Settles O59: each part is a field of `State.resetWith`, and R0 reads zero in every state. -/
theorem resetState : Obligations.ResetState :=
  ⟨rfl, rfl, rfl, fun _ => ⟨rfl, rfl, rfl, rfl, rfl, fun _ => rfl, rfl, State.reg_zero _⟩⟩

end Sys2Proof.Machine
end

section
/-! The register file and the double-word addition (O1, O47), PUSHF where the stack is RAM (O36), which instructions write
IF, a hidden register or memory (O44, O45), and what the count of drawn bits reaches (O60). The last two questions are each
settled by one case split over the instructions, `exec_changes` and `ignoresCount_or_alu_or_neg_or_mul`.
-/
namespace Sys2Proof.Machine

/-! ### The 17-bit sum, and two of them in a row -/

/-- The 17 bits of the data path hold the whole sum (41_arith.md R240). -/
theorem toNat_path17_add (a b : Word) (c : Bool) :
    (path17 a + path17 b + bit17 c).toNat = a.toNat + b.toNat + carryNat c := by
  have ha := a.isLt
  have hb := b.isLt
  cases c <;> simp [path17, bit17, carryNat] <;> omega

theorem toNat_add16 (a b : Word) (c : Bool) :
    (add16 a b c).r.toNat = (a.toNat + b.toNat + carryNat c) % 65536 := by
  simp only [add16, BitVec.toNat_setWidth, toNat_path17_add, Nat.reducePow]

theorem add16_carry (a b : Word) (c : Bool) :
    (add16 a b c).c = decide (65536 ≤ a.toNat + b.toNat + carryNat c) := by
  have top : (path17 a + path17 b + bit17 c).getLsbD 16 = (path17 a + path17 b + bit17 c).msb :=
    (BitVec.msb_eq_getLsbD_last _).symm
  simp only [add16, top, BitVec.msb_eq_decide, toNat_path17_add, Nat.add_one_sub_one, Nat.reducePow]

theorem toNat_append_words (hi lo : Word) : (hi ++ lo : BitVec 32).toNat = hi.toNat * 65536 + lo.toNat := by
  rw [BitVec.toNat_append, ← Nat.shiftLeft_add_eq_or_of_lt lo.isLt, Nat.shiftLeft_eq]

/-- The sum of the low halves, then with its carry that of the high halves, is the 32-bit sum (41_arith.md R243). -/
theorem add16_append_add16 (ahi bhi alo blo : Word) :
    ((add16 ahi bhi (add16 alo blo false).c).r ++ (add16 alo blo false).r : BitVec 32) =
      (ahi ++ alo) + (bhi ++ blo) := by
  apply BitVec.eq_of_toNat_eq
  rw [BitVec.toNat_add, toNat_append_words, toNat_append_words, toNat_append_words, toNat_add16, toNat_add16, add16_carry]
  by_cases h : 65536 ≤ alo.toNat + blo.toNat <;> simp [carryNat, h] <;> omega

/-- Where AF is the sign of a word, XAF is the high half of its sign extension (10_state.md R30). -/
theorem xaf_append {f : Flags} {w : Word} (h : f.AF = w.msb) : (f.xaf ++ w : BitVec 32) = w.signExtend 32 := by
  rw [Flags.xaf, h, BitVec.signExtend_eq_append_of_le (by decide)]
  cases w.msb <;> rfl

/-- XAF has the sign that AF holds. -/
theorem xaf_msb (f : Flags) : f.xaf.msb = f.AF := by
  unfold Flags.xaf; cases f.AF <;> rfl

/-- A destination other than R0 reads as the value of the operation. -/
theorem reg_alu_self {op : AluOp} (h : op ≠ .cmp) {rd : RegNum} (h0 : rd ≠ 0) (a b len : Word) (s : State) :
    (alu op rd a b len s).reg rd = (aluOut s.params.shiftCount op a b s.fr s.freeCount).value :=
  (reg_alu_dest h rd a b len s).trans (if_neg h0)

/-- ADD of `b` to the low half, then ADC of `c` to the high half, adds the 32-bit number `c ++ b` (41_arith.md R243). -/
theorem reg_append_of_add_adc {lo hi : RegNum} {b c len len' : Word} {s t u : State} (hlo : lo ≠ 0) (hhi : hi ≠ 0)
    (hne : hi ≠ lo) (ht : t = alu .add lo (s.reg lo) b len s) (hu : u = alu .adc hi (t.reg hi) c len' t) :
    (u.reg hi ++ u.reg lo : BitVec 32) = (s.reg hi ++ s.reg lo) + (c ++ b) := by
  have carry : t.fr.CF = (add16 (s.reg lo) b false).c := by rw [ht, alu_fr]; rfl
  have low : t.reg lo = (add16 (s.reg lo) b false).r := by rw [ht, reg_alu_self (by decide) hlo]; rfl
  have kept : t.reg hi = s.reg hi := by rw [ht]; exact (alu_frame .add lo _ _ _ s).registers hi (by simpa using hne)
  have low' : u.reg lo = t.reg lo := by rw [hu]; exact (alu_frame .adc hi _ _ _ t).registers lo (by simpa using hne.symm)
  have high : u.reg hi = (add16 (s.reg hi) c t.fr.CF).r := by rw [hu, reg_alu_self (by decide) hhi, kept]; rfl
  rw [high, carry, low', low, add16_append_add16]

/-! ### Which instructions write IF, a hidden register or memory -/

/-- The instructions that write IF (10_state.md R34). -/
def WritesIF (i : Instr) : Prop := i = .sti ∨ i = .cli ∨ i = .popf ∨ i = .reti ∨ ∃ v, i = .irc v

/-- The instructions that write HR0 (10_state.md R35). -/
def WritesHr0 (i : Instr) : Prop := ∃ rA rB, i = .mulu rA rB ∨ i = .muls rA rB

/-- The stores, the pushes, the calls and IRC (20_memory.md R61). -/
def WritesMemory (i : Instr) : Prop :=
  i = .pushf ∨ (∃ r, i = .push r ∨ i = .calli r) ∨ (∃ o, i = .call o ∨ i = .calla o ∨ i = .irc o) ∨
    (∃ rA rB, i = .stInd rA rB ∨ i = .stbInd rA rB ∨ i = .stsInd rA rB) ∨
    ∃ rA rB o, i = .stBased rA rB o ∨ i = .stbBased rA rB o ∨ i = .stsBased rA rB o

/-- Where `i` takes `s` to `t`, IF, the hidden registers and memory differ only if `i` is an instruction that writes
them. -/
structure Changes (i : Instr) (s t : State) : Prop where
  interrupt : t.fr.IF = s.fr.IF ∨ WritesIF i
  hidden : t.hr = s.hr ∨ WritesHr0 i
  memory : t.mem = s.mem ∨ WritesMemory i

/-- An instruction that leaves IF, the hidden registers and memory as they are. -/
theorem Changes.of_eq {i : Instr} {s t : State} (f : t.fr.IF = s.fr.IF) (h : t.hr = s.hr) (m : t.mem = s.mem) :
    Changes i s t := ⟨.inl f, .inl h, .inl m⟩

theorem writeWord_keeps {s t : State} {a v : Word} (h : writeWord s a v = .next t) : t.fr = s.fr ∧ t.hr = s.hr := by
  rcases writeWord_eq_next h with ⟨_, _, rfl⟩ | ⟨_, rfl⟩ | ⟨_, rfl⟩ | rfl <;> exact ⟨rfl, rfl⟩

theorem push_keeps {s t : State} {v : Word} (h : push s v = .next t) : t.fr = s.fr ∧ t.hr = s.hr := by
  obtain ⟨hf, hh⟩ := writeWord_keeps h
  exact ⟨hf.trans (State.decSp_fr s), hh.trans (State.decSp_hr s)⟩

/-- A push by an instruction that may write memory, followed by a change of the pc. -/
theorem changes_of_push {i : Instr} {s t : State} {v : Word} {f : State → Word}
    (h : (andThen (push s v) fun u => .next (u.withPc (f u))) = (.next t : Result State)) (hi : WritesMemory i) :
    Changes i s t := by
  obtain ⟨u, hu, e⟩ := andThen_eq_next.1 h
  obtain ⟨hf, hh⟩ := push_keeps hu
  cases e
  exact ⟨.inl (congrArg Flags.IF hf), .inl hh, .inr hi⟩

theorem changes_of_storeByteAt {i : Instr} {rA : RegNum} {a len : Word} {s t : State}
    (h : storeByteAt rA a len s = .next t) (hi : WritesMemory i) : Changes i s t := by
  obtain ⟨u, hu, e⟩ := andThen_eq_next.1 h
  cases e
  rcases putByte_eq_next hu with ⟨_, rfl⟩ | ⟨_, rfl⟩ <;> exact ⟨.inl rfl, .inl rfl, .inr hi⟩

theorem changes_of_storeWordAt {i : Instr} {rA : RegNum} {a len : Word} {s t : State}
    (h : storeWordAt rA a len s = .next t) (hi : WritesMemory i) : Changes i s t := by
  obtain ⟨u, hu, e⟩ := andThen_eq_next.1 h
  obtain ⟨hf, hh⟩ := writeWord_keeps hu
  cases e
  exact ⟨.inl (congrArg Flags.IF hf), .inl hh, .inr hi⟩

theorem changes_of_jumpIf {i : Instr} {c : Bool} {o : Word} {s t : State} (h : jumpIf c o s = .next t) :
    Changes i s t := by
  cases h
  cases c <;> exact .of_eq rfl rfl rfl

theorem changes_of_clearCacheBlock {i : Instr} {a len : Word} {s t : State} (h : clearCacheBlock a len s = .next t) :
    Changes i s t := by
  unfold clearCacheBlock at h
  split at h <;> cases h
  exact .of_eq rfl rfl rfl

theorem changes_of_alu {i : Instr} {x : Result Word} {op : AluOp} {rd : RegNum} {a len : Word} {s t : State}
    (h : (andThen x fun b => .next (alu op rd a b len s)) = (.next t : Result State)) : Changes i s t := by
  obtain ⟨b, _, rfl⟩ := aluRead_eq_next.1 h
  exact .of_eq (by simp) (by simp) (by simp)

/-- Every instruction changes IF, hidden registers and memory only as `Changes` says. -/
theorem exec_changes {i : Instr} {s t : State} (h : exec i s = .next t) : Changes i s t := by
  cases i
  case nop | jmp | jmpa | jmpi | clc | stc => cases h; exact .of_eq rfl rfl rfl
  case jz | jnz | jc | jnc | js | jns | jo | jno | jge | jlt | jgt | jle | jat | jbe | jeq | jne | jbt | jae =>
    exact changes_of_jumpIf h
  case ccbInd | ccbBased => exact changes_of_clearCacheBlock h
  case not | neg | inc | dec => cases h; exact .of_eq (by simp [negFlags, incDecFlags, Flags.withSZ]) (by simp) (by simp)
  case mhr rA k =>
    simp only [exec, execMhr] at h
    split at h <;> cases h
    exact .of_eq (by simp) (by simp) (by simp)
  case pop | ret =>
    obtain ⟨v, _, e⟩ := andThen_eq_next.1 h
    cases e
    exact .of_eq (by simp) (by simp) (by simp)
  case popf | reti =>
    obtain ⟨v, _, e⟩ := andThen_eq_next.1 h
    cases e
    exact ⟨.inr (by simp [WritesIF]), .inl (by simp), .inl (by simp)⟩
  case cli | sti => cases h; exact ⟨.inr (by simp [WritesIF]), .inl rfl, .inl rfl⟩
  case mulu | muls =>
    cases h
    exact ⟨.inl (by simp [multiply, mulFlags, Flags.withSZ]), .inr (by simp [WritesHr0]), .inl (by simp [multiply])⟩
  case push | pushf | call | calla | calli => exact changes_of_push h (by simp [WritesMemory])
  case irc v =>
    obtain ⟨u, hu, e⟩ := andThen_eq_next.1 h
    cases e
    exact ⟨.inr (by simp [WritesIF]), .inl (push_keeps hu).2, .inr (by simp [WritesMemory])⟩
  case stbInd | stbBased | stsInd | stsBased => exact changes_of_storeByteAt h (by simp [WritesMemory])
  case stInd | stBased => exact changes_of_storeWordAt h (by simp [WritesMemory])
  all_goals first
    | exact changes_of_alu h
    | exact changes_of_alu (x := .next _) h

/-- A multiplication writes no hidden register but HR0 (44_multiply.md R460, R461). -/
theorem hidden_multiply {rA : RegNum} {p : BitVec 32} {c : Bool} {s : State} {k : Nibble} (h : k ≠ 0) :
    (multiply rA p c s).hidden k = s.hidden k := by
  simp only [multiply, State.advance, State.hidden_withPc, State.hidden_drawn, State.hidden_withFr]
  rw [State.hidden_withHr0, if_neg h, State.hidden_setReg]

/-- No instruction writes a hidden register but HR0. -/
theorem exec_hidden {i : Instr} {s t : State} (h : exec i s = .next t) {k : Nibble} (hk : k ≠ 0) :
    t.hidden k = s.hidden k := by
  rcases (exec_changes h).hidden with e | ⟨rA, rB, rfl | rfl⟩
  · simp only [State.hidden, e]
  · cases h; exact hidden_multiply hk
  · cases h; exact hidden_multiply hk

/-- Whatever the instruction, a byte that differs afterwards is in RAM (00_scope.md R6). -/
theorem StoreEffect.ram_of_byteAt_ne {s t : State} (h : StoreEffect s t) {a : Word} (ne : t.byteAt a ≠ s.byteAt a) :
    s.kindAt a = some .ram := by
  have same : ∀ {u : State}, u.SameStore t → u.byteAt a ≠ s.byteAt a := fun e => by
    simpa only [State.byteAt, e.mem] using ne
  rcases h with h | ⟨x, b, k, h⟩ | ⟨x, v, k, l, h⟩ | ⟨x, h⟩
  · exact absurd rfl (same h)
  · by_cases e : a = x
    · rw [e, k]
    · exact absurd (by rw [State.byteAt_storeByte, if_neg e]) (same h)
  · by_cases e : a = x
    · rw [e, k]
    · by_cases e' : a = x + 1
      · rw [e', l]
      · exact absurd (by rw [State.byteAt_storeWord, if_neg e', if_neg e]) (same h)
  · exact absurd (State.byteAt_clearValidBits s x a) (same h)

/-! ### What the count of drawn bits reaches -/

/-- `x` with the count of drawn bits of its next state replaced. -/
def recounted (n : Nat) (x : Result State) : Result State := andThen x fun t => .next (t.withFreeCount n)

theorem next_eq_recounted {n : Nat} {u t : State} (h : u = t.withFreeCount n) :
    (.next u : Result State) = recounted n (.next t) := congrArg Host.Outcome.next h

section
variable (s : State) (n : Nat)

@[simp] theorem State.setReg_withFreeCount (r : RegNum) (v : Word) :
    (s.withFreeCount n).setReg r v = (s.setReg r v).withFreeCount n := by
  unfold State.setReg; split <;> rfl
@[simp] theorem State.decSp_withFreeCount : (s.withFreeCount n).decSp = s.decSp.withFreeCount n :=
  State.setReg_withFreeCount s n 15 _
@[simp] theorem State.incSp_withFreeCount : (s.withFreeCount n).incSp = s.incSp.withFreeCount n :=
  State.setReg_withFreeCount s n 15 _
@[simp] theorem State.withPc_withFreeCount (t : Word) :
    (s.withFreeCount n).withPc t = (s.withPc t).withFreeCount n := rfl
@[simp] theorem State.advance_withFreeCount (len : Word) :
    (s.withFreeCount n).advance len = (s.advance len).withFreeCount n := rfl
@[simp] theorem State.withFr_withFreeCount (f : Flags) :
    (s.withFreeCount n).withFr f = (s.withFr f).withFreeCount n := rfl
@[simp] theorem State.withIF_withFreeCount (b : Bool) :
    (s.withFreeCount n).withIF b = (s.withIF b).withFreeCount n := rfl
@[simp] theorem State.hiddenExists_withFreeCount (k : Nibble) :
    (s.withFreeCount n).hiddenExists k = s.hiddenExists k := rfl

end

theorem putByte_withFreeCount (s : State) (n : Nat) (a : Word) (b : Byte) :
    putByte (s.withFreeCount n) a b = recounted n (putByte s a b) := by
  simp only [putByte, State.kindAt_withFreeCount]
  split <;> rfl

/-- Two parts in a row that neither see nor change the count do so together. -/
theorem andThen_recounted {n : Nat} {x : Result State} {f g : State → Result State}
    (h : ∀ u, g (u.withFreeCount n) = recounted n (f u)) : andThen (recounted n x) g = recounted n (andThen x f) := by
  cases x with
  | next u => exact h u
  | fault r => rfl
  | refused r => rfl

/-- What is done with a value read is done with the same value read. -/
theorem andThen_read_recounted {α : Type} {n : Nat} {x : Result α} {f g : α → Result State}
    (h : ∀ v, g v = recounted n (f v)) : andThen x g = recounted n (andThen x f) := by
  cases x with
  | next v => exact h v
  | fault r => rfl
  | refused r => rfl

theorem writeWord_withFreeCount (s : State) (n : Nat) (a v : Word) :
    writeWord (s.withFreeCount n) a v = recounted n (writeWord s a v) := by
  simp only [writeWord, State.misaligned_withFreeCount, putByte_withFreeCount]
  split
  · rfl
  · exact andThen_recounted fun u => putByte_withFreeCount u n _ _

theorem push_withFreeCount (s : State) (n : Nat) (v : Word) : push (s.withFreeCount n) v = recounted n (push s v) := by
  rw [push, State.decSp_withFreeCount, writeWord_withFreeCount]; rfl

/-- The instruction neither sees nor changes the count of drawn bits. -/
def IgnoresCount (i : Instr) : Prop := ∀ s n, exec i (s.withFreeCount n) = recounted n (exec i s)

theorem jumpIf_withFreeCount (c : Bool) (o : Word) (s : State) (n : Nat) :
    jumpIf c o (s.withFreeCount n) = recounted n (jumpIf c o s) := by cases c <;> rfl

theorem clearCacheBlock_withFreeCount (a len : Word) (s : State) (n : Nat) :
    clearCacheBlock a len (s.withFreeCount n) = recounted n (clearCacheBlock a len s) := by
  by_cases h : s.params.cacheTransparent = true
  · simp only [clearCacheBlock, State.withFreeCount_params, h, if_true]; rfl
  · simp only [clearCacheBlock, State.withFreeCount_params, h]; rfl

theorem storeByteAt_withFreeCount (rA : RegNum) (a len : Word) (s : State) (n : Nat) :
    storeByteAt rA a len (s.withFreeCount n) = recounted n (storeByteAt rA a len s) := by
  rw [storeByteAt, writeByte, putByte_withFreeCount]
  exact andThen_recounted fun _ => rfl

theorem storeWordAt_withFreeCount (rA : RegNum) (a len : Word) (s : State) (n : Nat) :
    storeWordAt rA a len (s.withFreeCount n) = recounted n (storeWordAt rA a len s) := by
  rw [storeWordAt, writeWord_withFreeCount]
  exact andThen_recounted fun _ => rfl

/-- A push, then a change of the state outside the count. -/
theorem push_andThen_withFreeCount {s : State} {n : Nat} {v : Word} {f : State → State}
    (h : ∀ u, f (u.withFreeCount n) = (f u).withFreeCount n) :
    (andThen (push (s.withFreeCount n) v) fun u => .next (f u)) =
      recounted n (andThen (push s v) fun u => .next (f u)) := by
  rw [push_withFreeCount]
  exact andThen_recounted fun u => next_eq_recounted (h u)

/-- The ALU instruction `op` in the form `m` (30_encoding.md R106). -/
def aluForm (m : AluForm) (op : AluOp) (s : State) : Result State :=
  andThen (m.read s) fun b => .next (alu op m.dest (m.first s) b m.length s)

/-- Every instruction is one that neither sees nor changes the count, or an ALU instruction, NEG or a multiplication. Of an
ALU instruction the form is given case by case; its meaning then tells the operation. -/
theorem ignoresCount_or_alu_or_neg_or_mul (i : Instr) :
    IgnoresCount i ∨ (∃ m op, (∀ s, exec i s = aluForm m op s) ∧ m.instr op = some i) ∨ (∃ rA, i = .neg rA) ∨
      WritesHr0 i := by
  cases i
  case neg rA => exact .inr (.inr (.inl ⟨rA, rfl⟩))
  case mulu rA rB => exact .inr (.inr (.inr ⟨rA, rB, .inl rfl⟩))
  case muls rA rB => exact .inr (.inr (.inr ⟨rA, rB, .inr rfl⟩))
  case movImm4 | addImm4 | adcImm4 | subImm4 | sbbImm4 | andImm4 | orImm4 | xorImm4 | cmpImm4 | shlImm4 | shrImm4 |
      asrImm4 | rorImm4 | rlcImm4 | rrcImm4 =>
    exact .inr (.inl ⟨.imm4 _ _, _, fun _ => rfl, rfl⟩)
  case movReg | addReg | adcReg | subReg | sbbReg | andReg | orReg | xorReg | cmpReg | shlReg | shrReg | asrReg |
      rorReg | rlcReg | rrcReg =>
    exact .inr (.inl ⟨.reg _ _, _, fun _ => rfl, rfl⟩)
  case movXaf | addXaf | adcXaf | subXaf | sbbXaf | andXaf | orXaf | xorXaf | cmpXaf | shlXaf | shrXaf | asrXaf |
      rorXaf | rlcXaf | rrcXaf =>
    exact .inr (.inl ⟨.xaf _, _, fun _ => rfl, rfl⟩)
  case movbInd | addbInd | adcbInd | subbInd | sbbbInd | andbInd | orbInd | xorbInd | cmpbInd | shlbInd | shrbInd |
      asrbInd | rorbInd | rlcbInd | rrcbInd =>
    exact .inr (.inl ⟨.byteInd _ _, _, fun _ => rfl, rfl⟩)
  case movsInd | addsInd | adcsInd | subsInd | sbbsInd | andsInd | orsInd | xorsInd | cmpsInd =>
    exact .inr (.inl ⟨.sbyteInd _ _, _, fun _ => rfl, rfl⟩)
  case movInd | addInd | adcInd | subInd | sbbInd | andInd | orInd | xorInd | cmpInd | shlInd | shrInd | asrInd |
      rorInd | rlcInd | rrcInd =>
    exact .inr (.inl ⟨.wordInd _ _, _, fun _ => rfl, rfl⟩)
  case movImm16 | addImm16 | adcImm16 | subImm16 | sbbImm16 | andImm16 | orImm16 | xorImm16 | cmpImm16 | shlImm16 |
      shrImm16 | asrImm16 | rorImm16 | rlcImm16 | rrcImm16 =>
    exact .inr (.inl ⟨.imm16 _ _, _, fun _ => rfl, rfl⟩)
  case addRegImm16 | adcRegImm16 | subRegImm16 | sbbRegImm16 | andRegImm16 | orRegImm16 | xorRegImm16 | cmpRegImm16
      | shlRegImm16 | shrRegImm16 | asrRegImm16 | rorRegImm16 | rlcRegImm16 | rrcRegImm16 =>
    exact .inr (.inl ⟨.regImm16 _ _ _, _, fun _ => rfl, rfl⟩)
  case movbBased | addbBased | adcbBased | subbBased | sbbbBased | andbBased | orbBased | xorbBased | cmpbBased |
      shlbBased | shrbBased | asrbBased | rorbBased | rlcbBased | rrcbBased =>
    exact .inr (.inl ⟨.byteBased _ _ _, _, fun _ => rfl, rfl⟩)
  case movsBased | addsBased | adcsBased | subsBased | sbbsBased | andsBased | orsBased | xorsBased | cmpsBased =>
    exact .inr (.inl ⟨.sbyteBased _ _ _, _, fun _ => rfl, rfl⟩)
  case movBased | addBased | adcBased | subBased | sbbBased | andBased | orBased | xorBased | cmpBased | shlBased |
      shrBased | asrBased | rorBased | rlcBased | rrcBased =>
    exact .inr (.inl ⟨.wordBased _ _ _, _, fun _ => rfl, rfl⟩)
  all_goals refine .inl fun s n => ?_
  case nop | jmp | jmpa | jmpi | clc | stc | cli | sti => rfl
  case jz | jnz | jc | jnc | js | jns | jo | jno | jge | jlt | jgt | jle | jat | jbe | jeq | jne | jbt | jae =>
    exact jumpIf_withFreeCount _ _ s n
  case ccbInd | ccbBased => exact clearCacheBlock_withFreeCount _ _ s n
  case not | inc | dec => exact next_eq_recounted (by simp)
  case stbInd | stbBased | stsInd | stsBased => exact storeByteAt_withFreeCount _ _ _ s n
  case stInd | stBased => exact storeWordAt_withFreeCount _ _ _ s n
  case pushf | call | calla | irc => exact push_andThen_withFreeCount fun _ => rfl
  case push | calli =>
    simp only [exec, execPush, execCalli, State.decSp_withFreeCount, State.reg_withFreeCount]
    exact push_andThen_withFreeCount fun _ => rfl
  case pop | popf | ret | reti => exact andThen_read_recounted fun v => next_eq_recounted (by simp)
  case mhr rA k => by_cases h : s.hiddenExists k = true <;> simp [exec, execMhr, recounted, h]

/-! ### Flags that the source leaves undefined -/

/-- What the next state of `i` is where the count of drawn bits was `n` instead: the same but for that count and the flags
which the source leaves undefined after `i`. -/
def DrawsStayInOpenFlags (i : Instr) (s t : State) (n : Nat) : Prop :=
  ∃ u, exec i (s.withFreeCount n) = .next u ∧ (u.withFr t.fr).withFreeCount 0 = t.withFreeCount 0 ∧
    u.fr.CF = t.fr.CF ∧ u.fr.ZF = t.fr.ZF ∧ u.fr.SF = t.fr.SF ∧ u.fr.IF = t.fr.IF ∧
    (u.fr.AF ≠ t.fr.AF → leavesAFOpen i) ∧ (u.fr.OF ≠ t.fr.OF → leavesOFOpen i) ∧
    (t.freeCount = s.freeCount → u.fr = t.fr) ∧ (t.freeCount ≠ s.freeCount → leavesAFOpen i ∨ leavesOFOpen i)

/-- An instruction that neither sees nor changes the count answers the same for any other. -/
theorem drawsStay_of_ignoresCount {i : Instr} {s t : State} (hi : IgnoresCount i) (h : exec i s = .next t) (n : Nat) :
    DrawsStayInOpenFlags i s t n := by
  have run : ∀ m, exec i (s.withFreeCount m) = .next (t.withFreeCount m) := fun m => by rw [hi, h]; rfl
  have own : t = t.withFreeCount s.freeCount := Host.Outcome.next.inj (h.symm.trans (run s.freeCount))
  have count : t.freeCount = s.freeCount := (congrArg State.freeCount own).trans rfl
  exact ⟨_, run n, rfl, rfl, rfl, rfl, rfl, fun ne => absurd rfl ne, fun ne => absurd rfl ne, fun _ => rfl,
    fun ne => absurd count ne⟩

/-- An instruction that draws bits into AF and OF alone, each of them only where the source leaves it undefined. -/
theorem drawsStay_of_drawn {i : Instr} {s t : State} {n : Nat} (m : Nat) (a v : Bool)
    (run : exec i (s.withFreeCount n) = .next ((t.withFr { t.fr with AF := a, OF := v }).withFreeCount m))
    (count : t.freeCount ≠ s.freeCount) (ha : a ≠ t.fr.AF → leavesAFOpen i) (hv : v ≠ t.fr.OF → leavesOFOpen i)
    (hopen : leavesAFOpen i ∨ leavesOFOpen i) : DrawsStayInOpenFlags i s t n :=
  ⟨_, run, rfl, rfl, rfl, rfl, rfl, ha, hv, fun e => absurd e count, fun _ => hopen⟩

/-- The operations that draw a bit are those that leave OF undefined. -/
theorem aluOut_draws (op : AluOp) (k : Config.ShiftCount) (a b : Word) (f : Flags) (n : Nat) :
    (aluOut k op a b f n).draws = if op = .and ∨ op.shifts = true then 1 else 0 := by
  cases op <;> rfl

/-- The count reaches OF alone (10_state.md R37). -/
theorem aluOut_flags_redrawn (op : AluOp) (k : Config.ShiftCount) (a b : Word) (f : Flags) (m n : Nat) :
    (aluOut k op a b f n).flags = { (aluOut k op a b f m).flags with OF := (aluOut k op a b f n).flags.OF } := by
  cases op <;> rfl

theorem aluOut_value_redrawn (op : AluOp) (k : Config.ShiftCount) (a b : Word) (f : Flags) (m n : Nat) :
    (aluOut k op a b f n).value = (aluOut k op a b f m).value := by
  cases op <;> rfl

/-- An operation that does not leave OF undefined does not see the count. -/
theorem aluOut_of_not_drawing {op : AluOp} (h : ¬(op = .and ∨ op.shifts = true)) (k : Config.ShiftCount) (a b : Word)
    (f : Flags) (m n : Nat) : aluOut k op a b f n = aluOut k op a b f m := by
  cases op
  case and | shl | shr | asr | ror | rlc | rrc => exact absurd (by decide) h
  all_goals rfl

/-- An ALU instruction with another count: the same next state with other flags and another count. -/
theorem alu_withFreeCount (op : AluOp) (rd : RegNum) (a b len : Word) (s : State) (n : Nat) :
    alu op rd a b len (s.withFreeCount n) =
      ((alu op rd a b len s).withFr (aluOut s.params.shiftCount op a b s.fr n).flags).withFreeCount
        (n + (aluOut s.params.shiftCount op a b s.fr n).draws) := by
  simp only [alu, aluFinish, State.withFreeCount_params, State.withFreeCount_fr, State.withFreeCount_freeCount,
    State.setReg_withFreeCount, aluOut_value_redrawn op _ a b s.fr s.freeCount n]
  split <;> rfl

/-- Neither the operands of a form nor the reads of them see the count. -/
theorem aluForm_withFreeCount (m : AluForm) (op : AluOp) (s : State) (n : Nat) :
    aluForm m op (s.withFreeCount n) =
      andThen (m.read s) fun b => .next (alu op m.dest (m.first s) b m.length (s.withFreeCount n)) := by
  cases m <;> rfl

/-- An ALU instruction draws a bit into OF if its operation leaves OF undefined, and else neither sees nor changes the
count. -/
theorem drawsStay_of_alu {i : Instr} {m : AluForm} {op : AluOp} {s t : State} (run : ∀ s, exec i s = aluForm m op s)
    (hm : m.instr op = some i) (h : exec i s = .next t) (n : Nat) : DrawsStayInOpenFlags i s t n := by
  by_cases hop : op = .and ∨ op.shifts = true
  · have hopen : leavesOFOpen i := .inl ⟨m, op, hop, hm⟩
    rw [run] at h
    obtain ⟨b, hb, rfl⟩ := aluRead_eq_next.1 h
    have drawn : ∀ c, (aluOut s.params.shiftCount op (m.first s) b s.fr c).draws = 1 := fun c =>
      (aluOut_draws ..).trans (if_pos hop)
    refine drawsStay_of_drawn (n + 1) _ (aluOut s.params.shiftCount op (m.first s) b s.fr n).flags.OF ?_ ?_
      (fun ne => absurd rfl ne) (fun _ => hopen) (.inr hopen)
    · rw [run, aluForm_withFreeCount, hb, andThen_next, alu_withFreeCount, alu_fr, drawn,
        aluOut_flags_redrawn op _ _ _ _ s.freeCount n]
    · rw [alu_freeCount, drawn]; omega
  · refine drawsStay_of_ignoresCount (fun s n => ?_) h n
    rw [run, run, aluForm_withFreeCount]
    refine andThen_read_recounted fun b => next_eq_recounted ?_
    rw [alu_withFreeCount, aluOut_of_not_drawing hop _ _ _ _ s.freeCount n, ← alu_fr op m.dest _ b m.length s,
      aluOut_draws, if_neg hop]
    rfl

/-- NEG draws a bit into AF (41_arith.md R288). -/
theorem drawsStay_neg {rA : RegNum} {s t : State} (h : exec (.neg rA) s = .next t) (n : Nat) :
    DrawsStayInOpenFlags (.neg rA) s t n := by
  have hopen : leavesAFOpen (.neg rA) := .inl ⟨rA, rfl⟩
  cases h
  refine drawsStay_of_drawn (n + 1) (Config.freeBit n) _ (congrArg Host.Outcome.next ?_) ?_ (fun _ => hopen)
    (fun ne => absurd rfl ne) (.inl hopen)
  · rw [State.setReg_withFreeCount]; rfl
  · simp

/-- The count reaches AF and OF alone, which are the next two draws (44_multiply.md R460, R461). -/
theorem multiply_withFreeCount (rA : RegNum) (p : BitVec 32) (c : Bool) (s : State) (n : Nat) :
    multiply rA p c (s.withFreeCount n) =
      ((multiply rA p c s).withFr { (multiply rA p c s).fr with
        AF := Config.freeBit n, OF := Config.freeBit (n + 1) }).withFreeCount (n + 2) := by
  rw [multiply, State.setReg_withFreeCount]; rfl

/-- A multiplication draws a bit into AF and one into OF. -/
theorem drawsStay_of_multiply {i : Instr} (hi : WritesHr0 i) {s t : State} (h : exec i s = .next t) (n : Nat) :
    DrawsStayInOpenFlags i s t n := by
  have haf : leavesAFOpen i := .inr hi
  have hof : leavesOFOpen i := .inr hi
  refine drawsStay_of_drawn (n + 2) (Config.freeBit n) (Config.freeBit (n + 1)) ?_ ?_ (fun _ => haf) (fun _ => hof)
    (.inl haf)
  · obtain ⟨rA, rB, rfl | rfl⟩ := hi <;> cases h <;> exact congrArg Host.Outcome.next (multiply_withFreeCount ..)
  · obtain ⟨rA, rB, rfl | rfl⟩ := hi <;> cases h <;> simp [multiply]

/-! ### The obligations -/

/-- Settles O36: PUSHF pushes FR as a word, which `Flags.toNat_toWord` writes as a sum, and moves the pc on. -/
theorem pushfStoresTheFlagWord : Obligations.PushfStoresTheFlagWord := by
  intro s sp h
  let w := s.fr.toWord s.params.frReservedRead
  have run : exec .pushf s = .next ((s.pushed w).advance 2) := by
    change andThen (push s w) _ = _
    rw [push_eq h, andThen_next]
  exact ⟨_, w, run, reg_pushed s w 15, wordAt_pushed h w, s.fr.toNat_toWord _, by simp, by simp, by simp,
    (pushed_frame s w).withPcFr _ _⟩

/-- Settles O44, by the part of `exec_changes` about IF. -/
theorem onlyFiveInstructionsChangeIF : Obligations.OnlyFiveInstructionsChangeIF := fun _ _ _ h ne =>
  (exec_changes h).interrupt.resolve_left ne

/-- Settles O45: which instruction it is by `exec_changes`, which address it is by `exec_storeEffect`. -/
theorem onlyTheseWriteHr0OrMemory : Obligations.OnlyTheseWriteHr0OrMemory := fun _ s t h =>
  ⟨(exec_changes h).hidden.resolve_left, fun _ hk => exec_hidden h hk, fun a ne =>
    ⟨(exec_storeEffect h).ram_of_byteAt_ne ne, (exec_changes h).memory.resolve_left fun e =>
      ne (by rw [State.byteAt, e]; rfl)⟩⟩

/-- Settles O47: the first addition leaves in AF the sign of its operand, so XAF is the high half of the sign extension. -/
theorem addThenAdcXafAddsSignedWord : Obligations.AddThenAdcXafAddsSignedWord := by
  intro lo hi r s hlo hhi hne x
  let t := alu .add lo (s.reg lo) (s.reg r) 2 s
  let u := alu .adc hi (t.reg hi) t.fr.xaf 2 t
  have sign : t.fr.AF = (s.reg r).msb := by rw [alu_fr]; exact aluOut_AF .add _ _ _ _ _ (by decide)
  have sign' : u.fr.AF = t.fr.AF := by rw [alu_fr, aluOut_AF .adc _ _ _ _ _ (by decide), xaf_msb]
  refine ⟨t, u, rfl, rfl, ?_, sign'.trans sign, (alu_frame .add lo _ _ _ s).trans (alu_frame .adc hi _ _ _ t)⟩
  rw [reg_append_of_add_adc hlo hhi hne rfl rfl, xaf_append sign]

/-- Settles O60: only the ALU operations that leave OF undefined, NEG and the multiplications draw at all. -/
theorem drawsReachOnlyUndefinedFlags : Obligations.DrawsReachOnlyUndefinedFlags := by
  intro i s t n h
  rcases ignoresCount_or_alu_or_neg_or_mul i with hi | ⟨m, op, run, hm⟩ | ⟨rA, rfl⟩ | hi
  · exact drawsStay_of_ignoresCount hi h n
  · exact drawsStay_of_alu run hm h n
  · exact drawsStay_neg h n
  · exact drawsStay_of_multiply hi h n

/-- Settles O1, from the rules for a register read after a register write. -/
theorem zeroRegisterAndRegisterFile : Obligations.ZeroRegisterAndRegisterFile := fun s r v =>
  ⟨State.reg_zero s, State.setReg_zero s v, fun hr => State.reg_setReg_self s hr v,
    fun _ hq => State.reg_setReg_ne s hq v, _, State.setReg_eq s r v⟩

end Sys2Proof.Machine
end

section
/-! Memory: the invariant of memory and of the address lists over every step (O57) and at reset (O58), a stored word read back
(O24), reads and fetches that stop (O13, O55), and the step that runs the instruction at the pc (O53). The invariant goes
through `StoreEffect`, all that an instruction can do to memory; the statements about a fetch go through `ByteReached`, which
says that the step comes to a byte.
-/
namespace Sys2Proof.Machine

/-! ### The invariant of memory and of the address lists -/

theorem addressList_insertAddr {l : List Nat} (h : addressList l) (a : Word) : addressList (insertAddr l a.toNat) := by
  refine ⟨insertAddr_sorted h.1 _, fun x hx => ?_⟩
  rcases (mem_insertAddr l a.toNat x).1 hx with rfl | hx
  · exact a.isLt
  · exact h.2 x hx

/-- The invariant speaks of memory and of the address lists alone. -/
theorem State.Inv.of_sameStore {s t : State} (h : s.Inv) (e : s.SameStore t) : t.Inv where
  memory := e.mem ▸ h.memory
  written := e.written ▸ h.written
  writtenHasValue := by rw [e.written, e.mem]; exact h.writtenHasValue
  icache := e.icache ▸ h.icache
  dcache := e.dcache ▸ h.dcache

/-- A byte that becomes written gets its value by the same store (20_memory.md R63, R76). -/
theorem State.Inv.storeByte {s : State} (h : s.Inv) (a : Word) (b : Byte) : (s.storeByte a b).Inv where
  memory := State.storeByte_wf h.memory a b
  written := addressList_insertAddr h.written a
  writtenHasValue := fun x hx => by
    rw [State.storeByte_mem, Memory.get_set]
    split
    case isTrue => simp
    case isFalse ne => exact h.writtenHasValue x (((State.mem_written_storeByte s a b x).1 hx).resolve_left ne)
  icache := h.icache
  dcache := h.dcache

theorem State.Inv.storeWord {s : State} (h : s.Inv) (a v : Word) : (s.storeWord a v).Inv :=
  (h.storeByte a (hiByte v)).storeByte (a + 1) (loByte v)

theorem State.Inv.clearValidBits {s : State} (h : s.Inv) (a : Word) : (s.clearValidBits a).Inv where
  memory := h.memory
  written := h.written
  writtenHasValue := h.writtenHasValue
  icache := addressList_insertAddr h.icache a
  dcache := addressList_insertAddr h.dcache a

theorem State.Inv.pastBoundary {s : State} (h : s.Inv) : s.pastBoundary.Inv := h.of_sameStore ⟨rfl, rfl, rfl, rfl, rfl⟩

/-- Each of the effects that an instruction can have on memory and the address lists keeps the invariant. -/
theorem State.Inv.of_storeEffect {s t : State} (h : s.Inv) (e : StoreEffect s t) : t.Inv := by
  rcases e with e | ⟨a, b, _, e⟩ | ⟨a, v, _, _, e⟩ | ⟨a, e⟩
  · exact h.of_sameStore e
  · exact (h.storeByte a b).of_sameStore e
  · exact (h.storeWord a v).of_sameStore e
  · exact (h.clearValidBits a).of_sameStore e

theorem State.resetWith_inv (p : Config.Params) : (State.resetWith p).Inv := by
  have none_listed : addressList [] := ⟨.nil, nofun⟩
  exact ⟨none_listed, none_listed, nofun, none_listed, none_listed⟩

/-- A step that answers a state has run one instruction past the boundary, the forced IRC or the one fetched
(60_exceptions.md R601, R602). -/
theorem exec_of_step {s t : State} (h : step s = .next t) : ∃ i, exec i s.pastBoundary = .next t := by
  unfold step at h
  split at h
  · exact ⟨_, h⟩
  · obtain ⟨i, _, hi⟩ := andThen_eq_next.1 h
    exact ⟨i, hi⟩

/-! ### A stored word read back -/

theorem byteRead_storeWord_first {s : State} {a : Word} (h : s.kindAt a = some .ram) (v : Word) :
    (s.storeWord a v).byteRead a = some (hiByte v) := by
  rw [byteRead_ram ((State.kindAt_storeWord ..).trans h), State.byteAt_storeWord, if_neg (word_succ_ne a).symm, if_pos rfl]

theorem byteRead_storeWord_second {s : State} {a : Word} (h : s.kindAt (a + 1) = some .ram) (v : Word) :
    (s.storeWord a v).byteRead (a + 1) = some (loByte v) := by
  rw [byteRead_ram ((State.kindAt_storeWord ..).trans h), State.byteAt_storeWord, if_pos rfl]

theorem hiByte_setWidth (v : Word) : (hiByte v).setWidth 16 = v >>> 8 := by
  rw [hiByte_eq_shift]
  apply BitVec.eq_of_toNat_eq
  have := v.isLt
  simp only [BitVec.toNat_setWidth, BitVec.toNat_ushiftRight, Nat.shiftRight_eq_div_pow]
  omega

theorem loByte_setWidth (v : Word) : (loByte v).setWidth 16 = v &&& 0x00FF := by
  apply BitVec.eq_of_toNat_eq
  have low : v.toNat &&& (0x00FF : Word).toNat = v.toNat % 256 := Nat.and_two_pow_sub_one_eq_mod v.toNat 8
  rw [loByte_eq_setWidth, BitVec.toNat_setWidth, BitVec.toNat_setWidth, BitVec.toNat_and, low]
  omega

/-- MOV in any form puts operand B into its destination, R0 excepted (40_move_store.md R201). -/
theorem reg_of_exec_mov {m : AluForm} {i : Instr} {s : State} {b : Word} (hi : m.instr .mov = some i)
    (hb : m.second s = some b) (h0 : m.dest ≠ 0) : ∃ u, exec i s = .next u ∧ u.reg m.dest = b :=
  ⟨_, exec_form_of_second hi hb, reg_alu_self (by decide) h0 ..⟩

/-! ### Operands and stack words without a value -/

/-- An instruction that first reads the word at R15 stops where that word has no value (46_stack_flags.md R510). -/
theorem wordStop_of_stackTop {i : Instr} {s : State} {f : Word → State} (h : s.wordAt (s.reg 15) = none)
    (e : exec i s = andThen (stackTop s) fun v => .next (f v)) : s.WordStop (s.reg 15) (exec i s) :=
  e ▸ wordStop_andThen (readWord_stop h)

/-! ### The bytes that a fetch reaches -/

theorem andThen_assoc {α β γ : Type} (x : Result α) (f : α → Result β) (g : β → Result γ) :
    andThen (andThen x f) g = andThen x fun a => andThen (f a) g := by
  cases x <;> rfl

/-- The fetch of the halfword at `a` decides first what the next step does: all that is fetched before it has given its
value. -/
def HalfwordReached (s : State) (a : Word) : Prop := ∃ f : Word → Result State, step s = andThen (fetchHalfword s a) f

/-- The fetch of the byte at `a` decides first what the next step does: all that is fetched before it has given its value. -/
def ByteReached (s : State) (a : Word) : Prop := ∃ f : Byte → Result State, step s = andThen (fetchByte s a) f

/-- The two bytes of a halfword are fetched in turn, the one at the lower address first (20_memory.md R65). -/
theorem HalfwordReached.bytes {s : State} {a : Word} (h : HalfwordReached s a) (even : s.misaligned a = false) :
    ByteReached s a ∧ ∀ b, s.imageAt a [b] → ByteReached s (a + 1) := by
  obtain ⟨f, hf⟩ := h
  rw [fetchHalfword_eq even, andThen_assoc] at hf
  refine ⟨⟨_, hf⟩, fun b ⟨value, unwritten, _⟩ => ?_⟩
  rw [fetchByte_of_image value unwritten, andThen_next, andThen_assoc] at hf
  exact ⟨_, hf⟩

/-- Where no interrupt is taken the step begins with the opcode halfword (60_exceptions.md R601). -/
theorem halfwordReached_pc {s : State} (h : s.accepted = none) : HalfwordReached s s.pc := by
  rw [HalfwordReached, step_of_not_accepted h, fetch, andThen_assoc]
  exact ⟨_, rfl⟩

/-- After the opcode halfword of a long instruction comes its second halfword (30_encoding.md R102). -/
theorem halfwordReached_second {s : State} {b c : Byte} {i : Instr} (h : s.accepted = none)
    (even : s.misaligned s.pc = false) (long : b.msb = true) (d : decodeWords (b ++ c) 0 = some i)
    (n : i.notInternal = true) (m : s.imageAt s.pc [b, c]) : HalfwordReached s (s.pc + 2) := by
  rw [HalfwordReached, step_of_not_accepted h, fetch_long even long d n m, andThen_assoc]
  exact ⟨_, rfl⟩

theorem word_add_one_add_one (a : Word) : a + 1 + 1 = a + 2 := BitVec.add_assoc a 1 1

theorem word_add_two_add_one (a : Word) : a + 2 + 1 = a + 3 := BitVec.add_assoc a 2 1

theorem imageAt_cons_cons {s : State} {a : Word} {b c : Byte} {bs : List Byte} :
    s.imageAt a (b :: c :: bs) ↔ s.imageAt a [b, c] ∧ s.imageAt (a + 2) bs := by
  simp only [State.imageAt, word_add_one_add_one]
  tauto

/-- Which bytes of the instruction at the pc the next step comes to: the first of all, and each of the others once those
before it are bytes of the image, the third and the fourth if the instruction is a long one. -/
theorem bytesReached {s : State} (h : s.accepted = none) (even : s.misaligned s.pc = false) :
    ByteReached s s.pc ∧ (∀ b0, s.imageAt s.pc [b0] → ByteReached s (s.pc + 1)) ∧
    ∀ (b0 b1 : Byte) (i : Instr), b0.msb = true → decodeWords (b0 ++ b1) 0 = some i → i.notInternal = true →
      (s.imageAt s.pc [b0, b1] → ByteReached s (s.pc + 2)) ∧
      ∀ b2, s.imageAt s.pc [b0, b1, b2] → ByteReached s (s.pc + 3) := by
  obtain ⟨first, second⟩ := (halfwordReached_pc h).bytes even
  refine ⟨first, second, fun b0 b1 i long d n => ?_⟩
  have later (m : s.imageAt s.pc [b0, b1]) :=
    (halfwordReached_second h even long d n m).bytes ((misaligned_add_two s s.pc).trans even)
  refine ⟨fun m => (later m).1, fun b2 m => ?_⟩
  obtain ⟨m, m'⟩ := imageAt_cons_cons.1 m
  exact word_add_two_add_one s.pc ▸ (later m).2 b2 m'

/-- A byte reached that gives no value stops the step (92_eei_decisions.md D25, D31). -/
theorem ByteReached.stop {s : State} {a : Word} (h : ByteReached s a) (k : a.toNat ∉ s.written)
    (v : s.byteRead a = none) : s.ByteStop a (step s) := by
  obtain ⟨f, hf⟩ := h
  exact hf ▸ byteStop_andThen (fetchByte_stop v k)

/-- A byte reached that the program has written is refused (20_memory.md R76). -/
theorem ByteReached.refused {s : State} {a : Word} (h : ByteReached s a) (k : a.toNat ∈ s.written) :
    step s = .refused (.fetchOfWrittenByte a) := by
  obtain ⟨f, hf⟩ := h
  rw [hf, fetchByte_of_written k, andThen_refused]

theorem step_misaligned {s : State} (h : s.accepted = none) (odd : s.misaligned s.pc = true) :
    step s = .refused (.misalignedAccess s.pc) := by
  obtain ⟨f, hf⟩ := halfwordReached_pc h
  rw [hf, fetchHalfword, if_pos odd, andThen_refused]

/-! ### The instruction that a fetch decodes -/

/-- Whether a halfword is the opcode of IRC does not depend on the halfword after it (30_encoding.md R119, R123). -/
theorem notInternal_decodeWords (w imm imm' : Word) :
    (decodeWords w imm).map Instr.notInternal = (decodeWords w imm').map Instr.notInternal := by
  unfold decodeWords
  dsimp only
  split
  case h_9 => unfold decodeAluImm16; split <;> rfl
  case h_10 =>
    unfold decodeJump
    split
    case isTrue => split <;> rfl
    case isFalse => rfl
  case h_11 =>
    unfold decodeCall
    split
    case h_3 => split <;> rfl
    all_goals rfl
  case h_12 => unfold decodeAluRegImm16; split <;> rfl
  case h_13 => unfold decodeAluByteBased; split <;> rfl
  case h_14 => unfold decodeAluSByteBased; split <;> rfl
  case h_15 => unfold decodeAluWordBased; split <;> rfl
  case h_16 => unfold decodeStoreBased; split <;> rfl
  all_goals rfl

/-- All that the decoder can have read where no byte is left over: the two bytes of a short instruction or the four of a
long one (30_encoding.md R102). -/
theorem decodeBytes_eq_ok {bs : List Byte} {i : Instr} (h : decodeBytes bs = .ok i []) :
    (∃ b c, bs = [b, c] ∧ b.msb = false ∧ decodeWords (halfword b c) 0 = some i) ∨
    ∃ b c b' c' j, bs = [b, c, b', c'] ∧ b.msb = true ∧ decodeWords (halfword b c) 0 = some j ∧
      decodeWords (halfword b c) (halfword b' c') = some i := by
  unfold decodeBytes at h
  split at h
  case h_2 => cases h
  case h_1 b c rest =>
    simp only [isLong_halfword] at h
    split at h
    case h_1 => cases h
    case h_2 j first =>
      split at h
      case isFalse short => cases h; exact .inl ⟨b, c, rfl, by simpa using short, first⟩
      case isTrue long =>
        split at h
        case h_2 => cases h
        case h_1 b' c' rest' =>
          split at h <;> cases h
          case h_1 second => exact .inr ⟨b, c, b', c', j, rfl, long, first, second⟩

/-- The fetch of a short instruction (30_encoding.md R102). -/
theorem fetch_short {s : State} {b c : Byte} {i : Instr} (h : s.misaligned s.pc = false) (short : b.msb = false)
    (d : decodeWords (halfword b c) 0 = some i) (n : i.notInternal = true) (m : s.imageAt s.pc [b, c]) :
    fetch s = .next i := by
  rw [fetch, fetchHalfword_of_image h m, andThen_next, decodeFetched_of_decodeWords d n, andThen_next,
    isLong_halfword, short, if_neg (by simp)]

/-- The fetch answers the instruction that the bytes of the image at the pc encode (20_memory.md R65). -/
theorem fetch_of_image {s : State} {bs : List Byte} {i : Instr} (h : s.misaligned s.pc = false)
    (m : s.imageAt s.pc bs) (d : decodeBytes bs = .ok i []) (n : i.notInternal = true) : fetch s = .next i := by
  rcases decodeBytes_eq_ok d with ⟨b, c, rfl, short, d⟩ | ⟨b, c, b', c', j, rfl, long, first, second⟩
  · exact fetch_short h short d n m
  · obtain ⟨m, m'⟩ := imageAt_cons_cons.1 m
    have nj : j.notInternal = true := by
      have e := notInternal_decodeWords (halfword b c) 0 (halfword b' c')
      rw [first, second] at e
      exact (Option.some.inj e).trans n
    rw [fetch_long h long first nj m, fetchHalfword_of_image ((misaligned_add_two s s.pc).trans h) m', andThen_next,
      decodeFetched_of_decodeWords second n]

/-! ### The obligations -/

/-- Settles O57: a step runs one instruction, and each effect of an instruction on memory and the address lists keeps the
invariant. -/
theorem everyStepKeepsTheInvariant : Obligations.EveryStepKeepsTheInvariant := by
  intro s t inv h
  obtain ⟨i, run⟩ := exec_of_step h
  have effect := exec_storeEffect run
  exact ⟨inv.pastBoundary.of_storeEffect effect, effect.params⟩

/-- Settles O13: an operand and the word at R15 by what a read without a value does, a fetch by the bytes it reaches. -/
theorem readsWithoutAValueStop : Obligations.ReadsWithoutAValueStop := by
  intro s
  refine ⟨fun m op i hi none => ?_, fun none => ⟨?_, fun rA => wordStop_of_stackTop none rfl⟩, fun h even => ?_,
    fun plain a x => ⟨byteStop_of_plainMemory plain, wordStop_of_plainMemory plain⟩⟩
  · rw [exec_form hi]
    exact operandStop_andThen (read_stop none)
  · simp only [List.forall_mem_cons]
    exact ⟨wordStop_of_stackTop none rfl, wordStop_of_stackTop none rfl, wordStop_of_stackTop none rfl, nofun⟩
  · obtain ⟨first, second, later⟩ := bytesReached h even
    refine ⟨first.stop, fun b0 m => (second b0 m).stop, fun b0 b1 i long d n => ?_⟩
    obtain ⟨third, fourth⟩ := later b0 b1 i long d n
    exact ⟨fun m => (third m).stop, fun b2 m => (fourth b2 m).stop⟩

/-- Settles O24: after the store the word and its two bytes read back, and each of the three loads is a MOV of one of
them. -/
theorem storedWordReadsBack : Obligations.StoredWordReadsBack := by
  intro rA rB rC s h0 takes
  let t := (s.storeWord (s.reg rB) (s.reg rA)).advance 2
  have stored : exec (.stInd rA rB) s = .next t := by
    change storeWordAt rA (s.reg rB) 2 s = _
    rw [storeWordAt, writeWord_ram takes, andThen_next]
  have word : t.wordAt (t.reg rB) = some (s.reg rA) := wordAt_storeWord takes _
  have hi : t.byteRead (t.reg rB) = some (hiByte (s.reg rA)) := byteRead_storeWord_first takes.2.1 _
  have lo : t.byteRead (t.reg rB + 1) = some (loByte (s.reg rA)) := byteRead_storeWord_second takes.2.2 _
  refine ⟨t, stored, reg_of_exec_mov (m := .wordInd rC rB) rfl word h0,
    reg_of_exec_mov (m := .byteInd rC rB) rfl ?_ h0, reg_of_exec_mov (m := .byteBased rC rB 1) rfl ?_ h0⟩
  · rw [AluForm.second, hi, Option.map_some, hiByte_setWidth]
  · rw [AluForm.second, lo, Option.map_some, loByte_setWidth]

/-- Settles O55: each byte that the fetch reaches is refused where the program has written it. -/
theorem fetchOfWrittenBytesRefused : Obligations.FetchOfWrittenBytesRefused := by
  intro s b0 b1 b2 i h
  refine ⟨step_misaligned h, fun even => ?_⟩
  obtain ⟨first, second, later⟩ := bytesReached h even
  refine ⟨first.refused, fun m => (second b0 m).refused, fun long d n => ?_⟩
  obtain ⟨third, fourth⟩ := later b0 b1 i long d n
  exact ⟨fun m => (third m).refused, fun m => (fourth b2 m).refused⟩

/-- Settles O53, by the fetch of an instruction of the image. -/
theorem stepRunsTheDecodedInstruction : Obligations.StepRunsTheDecodedInstruction := fun s bs i h even m d n => by
  rw [step_of_not_accepted h, fetch_of_image even m d n, andThen_next]
  rfl

/-- Settles O58: after reset memory and the three address lists are empty, whatever the parameters. -/
theorem resetHasTheInvariant : Obligations.ResetHasTheInvariant :=
  ⟨State.resetWith_inv Config.specDefaults, State.resetWith_inv⟩

end Sys2Proof.Machine
end

section
/-! The encoding: the bytes of an instruction decode to it (O48, O51), what the decoder answers (O49), which opcode
halfwords it refuses (O50) and the step at them (O54), second names (O52). From an instruction to its words the case
split is over the constructors; from a word to the decoder's answer it is over the rows of the table of unassigned
opcodes (30_encoding.md R121), which `TableAnswer` compares with the decoder.
-/
namespace Sys2Proof.Machine

/-! ### Nibbles and bytes of a halfword, by their arithmetic -/

theorem toNat_halfword (b c : Byte) : (halfword b c).toNat = b.toNat * 256 + c.toNat := by
  change (b ++ c).toNat = _
  rw [BitVec.toNat_append, ← Nat.shiftLeft_add_eq_or_of_lt c.isLt, Nat.shiftLeft_eq]

/-- The four nibbles of a halfword are its digits in base 16 (30_encoding.md R101). -/
theorem toNat_nibbles (w : Word) :
    (nibble0 w).toNat = w.toNat / 4096 ∧ (nibble1 w).toNat = w.toNat / 256 % 16 ∧
    (nibble2 w).toNat = w.toNat / 16 % 16 ∧ (nibble3 w).toNat = w.toNat % 16 := by
  have nibble (k : Nat) : (w.extractLsb' k 4).toNat = w.toNat / 2 ^ k % 16 := by
    rw [BitVec.extractLsb'_toNat, Nat.shiftRight_eq_div_pow]
  refine ⟨(nibble 12).trans ?_, nibble 8, nibble 4, (nibble 0).trans ?_⟩ <;> omega

/-- The digits of a halfword are those of its two bytes. -/
theorem digits_halfword (b c : Byte) :
    (halfword b c).toNat / 4096 = b.toNat / 16 ∧ (halfword b c).toNat / 256 % 16 = b.toNat % 16 ∧
    (halfword b c).toNat / 16 % 16 = c.toNat / 16 ∧ (halfword b c).toNat % 16 = c.toNat % 16 := by
  rw [toNat_halfword]
  omega

theorem isLong_eq_msb (w : Word) : isLong w = (nibble0 w).msb := by
  rw [← isLong_ofNibbles (nibble0 w) (nibble1 w) (nibble2 w) (nibble3 w), ofNibbles_nibbles]

theorem length_encodeBytes (i : Instr) : (encodeBytes i).length = 2 * (encode i).length := by
  simp [encodeBytes, wordBytes, List.length_flatMap, Nat.mul_comm]

/-! ### The decoder, one group of opcodes at a time -/

/-- A case for each digit that a nibble can be, named as the tables print it (30_encoding.md R101, R106). -/
theorem nibbleCases {P : Nibble → Prop} (d0 : P 0x0) (d1 : P 0x1) (d2 : P 0x2) (d3 : P 0x3) (d4 : P 0x4) (d5 : P 0x5)
    (d6 : P 0x6) (d7 : P 0x7) (d8 : P 0x8) (d9 : P 0x9) (dA : P 0xA) (dB : P 0xB) (dC : P 0xC) (dD : P 0xD)
    (dE : P 0xE) (dF : P 0xF) (n : Nibble) : P n := by
  fin_cases n
  exacts [d0, d1, d2, d3, d4, d5, d6, d7, d8, d9, dA, dB, dC, dD, dE, dF]

/-- Nibble N0 of the opcode selects the group (30_encoding.md R107 to R119). -/
theorem decodeWords_ofNibbles (n1 n2 n3 : Nibble) (imm : Word) :
    decodeWords (ofNibbles 0x0 n1 n2 n3) imm = decodeMisc n1 n2 n3 ∧
    decodeWords (ofNibbles 0x1 n1 n2 n3) imm = decodeAluImm4 n1 n2 n3 ∧
    decodeWords (ofNibbles 0x2 n1 n2 n3) imm = decodeAluReg n1 n2 n3 ∧
    decodeWords (ofNibbles 0x3 n1 n2 n3) imm = decodeAluXaf n1 n2 ∧
    decodeWords (ofNibbles 0x4 n1 n2 n3) imm = decodeAluByteInd n1 n2 n3 ∧
    decodeWords (ofNibbles 0x5 n1 n2 n3) imm = decodeAluSByteInd n1 n2 n3 ∧
    decodeWords (ofNibbles 0x6 n1 n2 n3) imm = decodeAluWordInd n1 n2 n3 ∧
    decodeWords (ofNibbles 0x7 n1 n2 n3) imm = decodeStoreInd n1 n2 n3 ∧
    decodeWords (ofNibbles 0x8 n1 n2 n3) imm = decodeAluImm16 n1 n2 imm ∧
    decodeWords (ofNibbles 0x9 n1 n2 n3) imm = decodeJump n1 n2 imm ∧
    decodeWords (ofNibbles 0xA n1 n2 n3) imm = decodeCall n1 n2 imm ∧
    decodeWords (ofNibbles 0xB n1 n2 n3) imm = decodeAluRegImm16 n1 n2 n3 imm ∧
    decodeWords (ofNibbles 0xC n1 n2 n3) imm = decodeAluByteBased n1 n2 n3 imm ∧
    decodeWords (ofNibbles 0xD n1 n2 n3) imm = decodeAluSByteBased n1 n2 n3 imm ∧
    decodeWords (ofNibbles 0xE n1 n2 n3) imm = decodeAluWordBased n1 n2 n3 imm ∧
    decodeWords (ofNibbles 0xF n1 n2 n3) imm = decodeStoreBased n1 n2 n3 imm := by
  simp only [decodeWords, nibble0_ofNibbles, nibble1_ofNibbles, nibble2_ofNibbles, nibble3_ofNibbles]
  exact ⟨rfl, rfl, rfl, rfl, rfl, rfl, rfl, rfl, rfl, rfl, rfl, rfl, rfl, rfl, rfl, rfl⟩

/-- The decoder's answer to the opcode N0 N1 N2 N3 is the one that the table of unassigned opcodes asks for: none for an
opcode listed there, and for any other a first name whose words are as many as bit 15 says (30_encoding.md R102, R121,
R132). -/
inductive TableAnswer (n0 n1 n2 n3 : Nibble) : Option Instr → Prop
  | unassigned (listed : unassignedNibbles n0.toNat n1.toNat n2.toNat n3.toNat = true) : TableAnswer n0 n1 n2 n3 none
  | assigned {i : Instr} (listed : unassignedNibbles n0.toNat n1.toNat n2.toNat n3.toNat = false)
      (first : i.primary = i) (length : (encode i).length = if n0.msb then 2 else 1) : TableAnswer n0 n1 n2 n3 (some i)

/-- The answer of the decoder to the opcode N0 N1 N2 N3 is that of the table. -/
def DecodesByTable (n0 n1 n2 n3 : Nibble) : Prop :=
  ∀ imm, TableAnswer n0 n1 n2 n3 (decodeWords (ofNibbles n0 n1 n2 n3) imm)

/-- Row 1, 2, 3, 4, 6, 8, C, E of the table: N1 names one of fifteen operations, and F none. -/
theorem decodesByTable_alu (n1 n2 n3 : Nibble) :
    DecodesByTable 0x1 n1 n2 n3 ∧ DecodesByTable 0x2 n1 n2 n3 ∧ DecodesByTable 0x3 n1 n2 n3 ∧
    DecodesByTable 0x4 n1 n2 n3 ∧ DecodesByTable 0x6 n1 n2 n3 ∧ DecodesByTable 0x8 n1 n2 n3 ∧
    DecodesByTable 0xC n1 n2 n3 ∧ DecodesByTable 0xE n1 n2 n3 := by
  simp only [DecodesByTable, decodeWords_ofNibbles]
  cases n1 using nibbleCases
  case dF => and_intros <;> exact fun _ => .unassigned rfl
  all_goals and_intros <;> exact fun _ => .assigned rfl rfl rfl

/-- Row 5, D of the table: the shifts and rotates have no signed-byte mode (30_encoding.md R122). -/
theorem decodesByTable_aluSByte (n1 n2 n3 : Nibble) : DecodesByTable 0x5 n1 n2 n3 ∧ DecodesByTable 0xD n1 n2 n3 := by
  simp only [DecodesByTable, decodeWords_ofNibbles]
  cases n1 using nibbleCases
  case d9 | dA | dB | dC | dD | dE | dF => and_intros <;> exact fun _ => .unassigned rfl
  all_goals and_intros <;> exact fun _ => .assigned rfl rfl rfl

/-- Row B of the table: MOV has no three-operand mode (30_encoding.md R122). -/
theorem decodesByTable_aluRegImm16 (n1 n2 n3 : Nibble) : DecodesByTable 0xB n1 n2 n3 := by
  simp only [DecodesByTable, decodeWords_ofNibbles]
  cases n1 using nibbleCases
  case d0 | dF => exact fun _ => .unassigned rfl
  all_goals exact fun _ => .assigned rfl rfl rfl

/-- Row 7, F of the table: STB, ST and CCB. -/
theorem decodesByTable_store (n1 n2 n3 : Nibble) : DecodesByTable 0x7 n1 n2 n3 ∧ DecodesByTable 0xF n1 n2 n3 := by
  simp only [DecodesByTable, decodeWords_ofNibbles]
  cases n1 using nibbleCases
  case d0 | d1 | d8 => and_intros <;> exact fun _ => .assigned rfl rfl rfl
  all_goals and_intros <;> exact fun _ => .unassigned rfl

/-- A nibble that a printed 0 excludes (92_eei_decisions.md D14). -/
theorem toNat_bne_zero {n : Nibble} (h : n ≠ 0) : (n.toNat != 0) = true :=
  bne_iff_ne.2 fun e => h (BitVec.eq_of_toNat_eq e)

/-- Row 9 of the table: N1 names one of sixteen jumps where N2 is the printed 0. -/
theorem decodesByTable_jump (n1 n2 n3 : Nibble) : DecodesByTable 0x9 n1 n2 n3 := by
  simp only [DecodesByTable, decodeWords_ofNibbles]
  by_cases h : n2 = 0
  · subst h
    cases n1 using nibbleCases
    all_goals exact fun _ => .assigned rfl rfl rfl
  · simp only [decodeJump, if_neg h]
    exact fun _ => .unassigned (toNat_bne_zero h)

/-- Row A of the table: CALL, CALLA, and IRC where N2 is the printed 0. -/
theorem decodesByTable_call (n1 n2 n3 : Nibble) : DecodesByTable 0xA n1 n2 n3 := by
  simp only [DecodesByTable, decodeWords_ofNibbles]
  cases n1 using nibbleCases
  case d0 | d1 => exact fun _ => .assigned rfl rfl rfl
  case d8 =>
    by_cases h : n2 = 0
    · subst h
      exact fun _ => .assigned rfl rfl rfl
    · intro imm
      have refused : decodeCall 8 n2 imm = none := if_neg h
      exact refused ▸ .unassigned (toNat_bne_zero h)
  all_goals exact fun _ => .unassigned rfl

/-- Row 0 of the table: N1 alone decides, but for the groups 1 to 5, in which N3 names one of two or of four
instructions. -/
theorem decodesByTable_misc (n1 n2 n3 : Nibble) : DecodesByTable 0x0 n1 n2 n3 := by
  simp only [DecodesByTable, decodeWords_ofNibbles]
  cases n1 using nibbleCases
  case d0 | d8 | d9 | dA => exact fun _ => .assigned rfl rfl rfl
  case d1 | d2 =>
    cases n3 using nibbleCases
    case d0 | d1 => exact fun _ => .assigned rfl rfl rfl
    all_goals exact fun _ => .unassigned rfl
  case d3 | d4 | d5 =>
    cases n3 using nibbleCases
    case d0 | d1 | d2 | d3 => exact fun _ => .assigned rfl rfl rfl
    all_goals exact fun _ => .unassigned rfl
  all_goals exact fun _ => .unassigned rfl

/-- The decoder answers by the table, row by row of N0. -/
theorem decodesByTable (n0 n1 n2 n3 : Nibble) : DecodesByTable n0 n1 n2 n3 := by
  obtain ⟨imm4, reg, xaf, byteInd, wordInd, imm16, byteBased, wordBased⟩ := decodesByTable_alu n1 n2 n3
  obtain ⟨sByteInd, sByteBased⟩ := decodesByTable_aluSByte n1 n2 n3
  obtain ⟨storeInd, storeBased⟩ := decodesByTable_store n1 n2 n3
  cases n0 using nibbleCases
  exacts [decodesByTable_misc n1 n2 n3, imm4, reg, xaf, byteInd, sByteInd, wordInd, storeInd, imm16,
    decodesByTable_jump n1 n2 n3, decodesByTable_call n1 n2 n3, decodesByTable_aluRegImm16 n1 n2 n3, byteBased,
    sByteBased, wordBased, storeBased]

theorem tableAnswer_decodeWords (w imm : Word) :
    TableAnswer (nibble0 w) (nibble1 w) (nibble2 w) (nibble3 w) (decodeWords w imm) := by
  have h := decodesByTable (nibble0 w) (nibble1 w) (nibble2 w) (nibble3 w) imm
  rwa [ofNibbles_nibbles] at h

/-- The halfwords that are no instruction (30_encoding.md R121). -/
theorem decodeWords_eq_none {w imm : Word} : decodeWords w imm = none ↔
    unassignedNibbles (w.toNat / 4096) (w.toNat / 256 % 16) (w.toNat / 16 % 16) (w.toNat % 16) = true := by
  obtain ⟨d0, d1, d2, d3⟩ := toNat_nibbles w
  have h := tableAnswer_decodeWords w imm
  rw [← d0, ← d1, ← d2, ← d3]
  generalize decodeWords w imm = answer at h
  cases h with
  | unassigned listed => simp [listed]
  | assigned listed => simp [listed]

/-- Whether a halfword is an opcode does not depend on the halfword after it. -/
theorem exists_decodeWords_eq_some {w imm : Word} {i : Instr} (h : decodeWords w imm = some i) (imm' : Word) :
    ∃ j, decodeWords w imm' = some j := by
  refine Option.ne_none_iff_exists'.1 fun refused => ?_
  have refused' : decodeWords w imm = none := decodeWords_eq_none.2 (decodeWords_eq_none.1 refused)
  cases h.symm.trans refused'

/-- What the decoder answers is a first name, of the length that bit 15 says (30_encoding.md R102, R132). -/
theorem decodeWords_eq_some {w imm : Word} {i : Instr} (h : decodeWords w imm = some i) :
    i.primary = i ∧ (encode i).length = if isLong w then 2 else 1 := by
  have table := tableAnswer_decodeWords w imm
  rw [h] at table
  cases table with
  | assigned _ first length => exact ⟨first, isLong_eq_msb w ▸ length⟩

/-! ### The words of an instruction, and its bytes -/

/-- `ws` are the halfwords of one instruction, which the decoder reads as `i`: one, or two where bit 15 of the first is
set (30_encoding.md R102). -/
inductive WordsOf (i : Instr) : List Word → Prop
  | short {w : Word} (length : isLong w = false) (decodes : decodeWords w 0 = some i) : WordsOf i [w]
  | long {w imm : Word} (length : isLong w = true) (decodes : decodeWords w imm = some i) : WordsOf i [w, imm]

/-- The words written for an instruction are those of its first name (30_encoding.md R100 to R119, R132): N0 selects the
decoder's group, in which N1, and N3 where the table prints it, select the instruction. -/
theorem wordsOf_encode (i : Instr) : WordsOf i.primary (encode i) := by
  cases i
  all_goals constructor
  all_goals
    simp only [isLong_ofNibbles, decodeWords_ofNibbles]
    rfl

/-- The decoder reads the bytes of an instruction and leaves what follows (20_memory.md R65). -/
theorem decodeBytes_wordsOf {i : Instr} {ws : List Word} (h : WordsOf i ws) (rest : List Byte) :
    decodeBytes (ws.flatMap wordBytes ++ rest) = .ok i rest := by
  cases h with
  | @short w length decodes =>
    change decodeBytes (hiByte w :: loByte w :: rest) = _
    simp only [decodeBytes, halfword_hiByte_loByte, decodes, length, Bool.false_eq_true, if_false]
  | @long w imm length decodes =>
    obtain ⟨j, first⟩ := exists_decodeWords_eq_some decodes 0
    change decodeBytes (hiByte w :: loByte w :: hiByte imm :: loByte imm :: rest) = _
    simp only [decodeBytes, halfword_hiByte_loByte, first, length, if_true, decodes]

/-- What the decoder has read where it answers: the opcode halfword, and two bytes more where bit 15 is set
(30_encoding.md R102). -/
theorem decodeBytes_cons_cons_eq_ok {b c : Byte} {bs rest : List Byte} {i : Instr}
    (h : decodeBytes (b :: c :: bs) = .ok i rest) :
    (∃ imm, decodeWords (halfword b c) imm = some i) ∧ bs.length = rest.length + if b.msb then 2 else 0 := by
  simp only [decodeBytes, isLong_halfword] at h
  split at h
  case h_1 => cases h
  case h_2 j first =>
    split at h
    case isFalse short =>
      cases h
      exact ⟨⟨0, first⟩, by simp [short]⟩
    case isTrue long =>
      split at h
      case h_2 => cases h
      case h_1 b' c' rest' =>
        split at h <;> cases h
        case h_1 second => exact ⟨⟨_, second⟩, by simp [long]⟩

/-! ### The step at an opcode that the fetch refuses -/

/-- An opcode halfword that is refused ends the step before anything after it is read (30_encoding.md R121, R123). -/
theorem step_of_decodeFetched_refused {s : State} {b c : Byte} {r : Refusal} (h : s.accepted = none)
    (even : s.misaligned s.pc = false) (m : s.imageAt s.pc [b, c])
    (d : decodeFetched (halfword b c) 0 = .refused r) : step s = .refused r := by
  rw [step_of_not_accepted h, fetch, fetchHalfword_of_image even m, andThen_next, d, andThen_refused, andThen_refused]

theorem decodeFetched_of_none {w imm : Word} (h : decodeWords w imm = none) :
    decodeFetched w imm = .refused (.unassignedOpcode w) := by
  simp only [decodeFetched, h]

theorem decodeFetched_of_irc {w imm v : Word} (h : decodeWords w imm = some (.irc v)) :
    decodeFetched w imm = .refused .ircFetched := by
  simp only [decodeFetched, h]
  rfl

/-- The bytes A8 0x are the opcode of IRC (30_encoding.md R119, R123). -/
theorem decodeWords_irc {c : Byte} (h : c.toNat < 16) (imm : Word) :
    decodeWords (halfword 0xA8 c) imm = some (.irc imm) := by
  obtain ⟨d0, d1, d2, -⟩ := toNat_nibbles (halfword 0xA8 c)
  obtain ⟨e0, e1, e2, -⟩ := digits_halfword 0xA8 c
  have n0 : nibble0 (halfword 0xA8 c) = 0xA := BitVec.eq_of_toNat_eq (d0.trans e0)
  have n1 : nibble1 (halfword 0xA8 c) = 0x8 := BitVec.eq_of_toNat_eq (d1.trans e1)
  have n2 : nibble2 (halfword 0xA8 c) = 0x0 := BitVec.eq_of_toNat_eq ((d2.trans e2).trans (Nat.div_eq_of_lt h))
  rw [← ofNibbles_nibbles (halfword 0xA8 c), n0, n1, n2]
  simp only [decodeWords_ofNibbles]
  rfl

/-! ### The obligations -/

/-- Settles O48: the words of an instruction are those of its first name, and the decoder reads their bytes. -/
theorem decodeOfEncodeIsTheInstruction : Obligations.DecodeOfEncodeIsTheInstruction := fun i rest =>
  decodeBytes_wordsOf (wordsOf_encode i) rest

/-- Settles O49, by the table's answer to the opcode halfword; that the answer's bytes decode to it again is O48. -/
theorem decodedInstructionsHaveTheirLength : Obligations.DecodedInstructionsHaveTheirLength := by
  intro b0 b1 bs rest i h
  obtain ⟨⟨imm, decodes⟩, used⟩ := decodeBytes_cons_cons_eq_ok h
  obtain ⟨first, words⟩ := decodeWords_eq_some decodes
  have again := decodeOfEncodeIsTheInstruction i []
  rw [isLong_halfword] at words
  rw [List.append_nil, first] at again
  refine ⟨first, ?_, ?_, again⟩
  · rw [List.length_cons, List.length_cons, used]
    split <;> rfl
  · rw [length_encodeBytes, words]
    split <;> rfl

/-- Settles O50, by the rows of the table. -/
theorem unassignedOpcodesAreThoseOfTheTable : Obligations.UnassignedOpcodesAreThoseOfTheTable := fun _ _ =>
  decodeWords_eq_none

/-- Settles O54: what the decoder answers to the opcode halfword is refused. -/
theorem unassignedAndInternalOpcodesRefused : Obligations.UnassignedAndInternalOpcodesRefused := by
  intro s b0 b1 h even m
  refine ⟨fun listed => ?_, fun a8 low => ?_⟩
  · obtain ⟨d0, d1, d2, d3⟩ := digits_halfword b0 b1
    rw [← d0, ← d1, ← d2, ← d3] at listed
    exact step_of_decodeFetched_refused h even m (decodeFetched_of_none (decodeWords_eq_none.2 listed))
  · subst a8
    exact step_of_decodeFetched_refused h even m (decodeFetched_of_irc (decodeWords_irc low 0))

/-- Settles O51: the decoder evaluated on the eleven words. -/
theorem wordsOfTheTablesDecode : Obligations.WordsOfTheTablesDecode := by
  unfold Obligations.WordsOfTheTablesDecode
  decide

/-- Settles O52: each of the six second names is written and executed as its first name by definition, and every other
instruction is its own first name. -/
theorem secondNamesAreTheFirst : Obligations.SecondNamesAreTheFirst := by
  intro i
  cases i
  all_goals exact ⟨rfl, fun _ => rfl⟩

end Sys2Proof.Machine
end

section
/-! Moves and stores (O5, O20, O21, O22): MOV in its forms through `alu`, MHR as one register write, and the stores where their
addresses are RAM. Each store is settled once over its address and its length; an instruction then only says which they are.
-/
namespace Sys2Proof.Machine

/-! ### Hidden registers -/

/-- HR0 exists on every platform, another hidden register where its number is below `HR_COUNT` (40_move_store.md R200). -/
theorem hiddenExists_iff {s : State} {k : Nibble} :
    s.hiddenExists k = true ↔ k = 0 ∨ k.toNat < s.params.hrCount := by simp [State.hiddenExists]

theorem exec_mhr_of_exists {s : State} {k : Nibble} (h : s.hiddenExists k = true) (rA : RegNum) :
    exec (.mhr rA k) s = .next ((s.setReg rA (s.hidden k)).advance 2) := if_pos h

theorem exec_mhr_of_not_exists {s : State} {k : Nibble} (h : ¬ s.hiddenExists k = true) (rA : RegNum) :
    exec (.mhr rA k) s = .refused (.undefinedHiddenRegister k) := if_neg h

/-- The frame of a register write. -/
theorem setReg_frame (s : State) (r : RegNum) (v : Word) : Frame [r] [] s (s.setReg r v) where
  registers := fun _ hq => State.reg_setReg_ne s (List.ne_of_not_mem_cons hq) v
  bytes := by simp
  written := by simp
  icache := by simp
  dcache := by simp
  irq := by simp
  params := by simp

/-! ### Stores to RAM -/

/-- A byte store where the map has RAM: the byte, and nothing else but the pc (40_move_store.md R212). -/
theorem exec_of_storeByteAt {s : State} {i : Instr} {rA : RegNum} {a len : Word} (h : exec i s = storeByteAt rA a len s)
    (ram : s.kindAt a = some .ram) :
    ∃ t, exec i s = .next t ∧ t.byteAt a = some ((s.reg rA).setWidth 8) ∧ t.fr = s.fr ∧ t.pc = s.pc + len ∧
      t.hr = s.hr ∧ Frame [] [a] s t := by
  let u := s.storeByte a (loByte (s.reg rA))
  have run : exec i s = .next (u.advance len) := by rw [h, storeByteAt, writeByte_ram ram, andThen_next]
  have byte : u.byteAt a = some (loByte (s.reg rA)) := by rw [State.byteAt_storeByte, if_pos rfl]
  exact ⟨_, run, byte, rfl, rfl, rfl, (storeByte_frame s a _).withPcFr _ _⟩

/-- A word store where both its bytes go to RAM: the high byte first, and nothing else but the pc (20_memory.md R64). -/
theorem exec_of_storeWordAt {s : State} {i : Instr} {rA : RegNum} {a len : Word} (h : exec i s = storeWordAt rA a len s)
    (takes : s.takesWord a) :
    ∃ t, exec i s = .next t ∧ t.byteAt a = some ((s.reg rA >>> 8).setWidth 8) ∧
      t.byteAt (a + 1) = some ((s.reg rA).setWidth 8) ∧ t.fr = s.fr ∧ t.pc = s.pc + len ∧ t.hr = s.hr ∧
      Frame [] [a, a + 1] s t := by
  let u := s.storeWord a (s.reg rA)
  have run : exec i s = .next (u.advance len) := by rw [h, storeWordAt, writeWord_ram takes, andThen_next]
  have high : u.byteAt a = some ((s.reg rA >>> 8).setWidth 8) := by
    rw [State.byteAt_storeWord, if_neg (word_succ_ne a).symm, if_pos rfl, hiByte_eq_shift]
  have low : u.byteAt (a + 1) = some (loByte (s.reg rA)) := by rw [State.byteAt_storeWord, if_pos rfl]
  exact ⟨_, run, high, low, rfl, rfl, rfl, (storeWord_frame s a _).withPcFr _ _⟩

/-- The opcodes of STB and ST (30_encoding.md R119). -/
theorem decodeWords_store (rA rB : RegNum) (imm : Word) :
    decodeWords (ofNibbles 7 0 rA rB) imm = some (.stbInd rA rB) ∧
    decodeWords (ofNibbles 15 0 rA rB) imm = some (.stbBased rA rB imm) ∧
    decodeWords (ofNibbles 7 1 rA rB) imm = some (.stInd rA rB) ∧
    decodeWords (ofNibbles 15 1 rA rB) imm = some (.stBased rA rB imm) := by
  simp only [decodeWords_ofNibbles]
  exact ⟨rfl, rfl, rfl, rfl⟩

/-! ### The obligations -/

/-- Settles O5: every form runs `alu` on its operands (`exec_form_of_second`), whose value for MOV is operand B and whose
flags are those before. -/
theorem movCopiesOperandInEveryForm : Obligations.MovCopiesOperandInEveryForm := by
  intro m i s b hi hb
  have dest := reg_alu_dest (op := .mov) (by decide) m.dest (m.first s) b m.length s
  have flags : (alu .mov m.dest (m.first s) b m.length s).fr = s.fr := by rw [alu_fr, aluOut_mov_flags]
  exact ⟨_, exec_form_of_second hi hb, dest, flags, alu_pc .., alu_hr .., alu_frame ..⟩

/-- Settles O21: all four instructions are byte stores, a second name at the address of its first. -/
theorem byteStoresWriteOneByte : Obligations.ByteStoresWriteOneByte := by
  intro rA rB offs16 imm s
  obtain ⟨decodeInd, -⟩ := decodeWords_store rA rB imm
  obtain ⟨-, decodeBased, -⟩ := decodeWords_store rA rB offs16
  have ind : ∀ i ∈ [Instr.stbInd rA rB, .stsInd rA rB], exec i s = storeByteAt rA (s.reg rB) 2 s := by
    simp only [List.forall_mem_cons]
    exact ⟨rfl, rfl, nofun⟩
  have based : ∀ i ∈ [Instr.stbBased rA rB offs16, .stsBased rA rB offs16],
      exec i s = storeByteAt rA (s.based rB offs16) 4 s := by
    simp only [List.forall_mem_cons]
    exact ⟨rfl, rfl, nofun⟩
  refine ⟨decodeInd, decodeBased, fun ram i hi => exec_of_storeByteAt (ind i hi) ram, fun ram i hi => ?_⟩
  obtain ⟨t, run, byte, fr, pc, hr, frame⟩ := exec_of_storeByteAt (based i hi) ram
  exact ⟨t, run, byte, fr, pc, hr, rfl, frame⟩

/-- Settles O22: both forms are word stores. -/
theorem wordStoresAreBigEndian : Obligations.WordStoresAreBigEndian := by
  intro rA rB offs16 imm s
  obtain ⟨-, -, decodeInd, -⟩ := decodeWords_store rA rB imm
  obtain ⟨-, -, -, decodeBased⟩ := decodeWords_store rA rB offs16
  refine ⟨decodeInd, decodeBased, exec_of_storeWordAt rfl, fun takes => ?_⟩
  obtain ⟨t, run, high, low, fr, pc, hr, frame⟩ := exec_of_storeWordAt (i := .stBased rA rB offs16) rfl takes
  exact ⟨t, run, high, low, fr, pc, hr, rfl, frame⟩

/-- Settles O20: MHR is one write of a register where the hidden register exists, and refused where it does not. -/
theorem mhrReadsTheHiddenRegistersThatExist : Obligations.MhrReadsTheHiddenRegistersThatExist := by
  intro rA k s
  refine ⟨rfl, fun present => ?_, fun k0 beyond => exec_mhr_of_not_exists ?_ rA⟩
  · let u := s.setReg rA (s.hidden k)
    exact ⟨u.advance 2, exec_mhr_of_exists (hiddenExists_iff.2 present) rA, State.reg_setReg_dest s rA _, by simp [u],
      by simp [u], by simp [u], (setReg_frame s rA _).withPcFr _ _⟩
  · rw [hiddenExists_iff]
    rintro (zero | below)
    · exact k0 zero
    · omega

end Sys2Proof.Machine
end

section
/-! Addition and subtraction (O2, O3, O6 to O12, O46). The 17-bit path is settled once: `add16_eq` and `sub16_eq` say the
result, the carry or borrow and the overflow by exact integers. An instruction then only says which sum it makes of which
operands.
-/
namespace Sys2Proof.Machine

/-! ### The result and the carry -/

theorem carryNat_le_one (c : Bool) : carryNat c ≤ 1 := by cases c <;> decide

theorem toNat_ofNat_carryNat (c : Bool) : (BitVec.ofNat 16 (carryNat c)).toNat = carryNat c := by cases c <;> rfl

theorem toInt_ofNat_carryNat (c : Bool) : (BitVec.ofNat 16 (carryNat c)).toInt = carryNat c := by cases c <;> rfl

theorem add16_r (a b : Word) (c : Bool) : (add16 a b c).r = a + b + BitVec.ofNat 16 (carryNat c) := by
  apply BitVec.eq_of_toNat_eq
  rw [toNat_add16, BitVec.toNat_add, BitVec.toNat_add, toNat_ofNat_carryNat, Nat.mod_add_mod]

/-- The 17 bits of the data path hold the difference modulo 2^17, which is negative exactly where a borrow is needed
(41_arith.md R241). -/
theorem toNat_path17_sub (a b : Word) (c : Bool) :
    (path17 a - path17 b - bit17 c).toNat = (131072 + a.toNat - b.toNat - carryNat c) % 131072 := by
  have ha := a.isLt
  have hb := b.isLt
  cases c <;> simp [path17, bit17, carryNat] <;> omega

theorem sub16_r (a b : Word) (c : Bool) : (sub16 a b c).r = a - b - BitVec.ofNat 16 (carryNat c) := by
  have ha := a.isLt
  have hb := b.isLt
  have hc := carryNat_le_one c
  have low : (sub16 a b c).r.toNat = (path17 a - path17 b - bit17 c).toNat % 65536 := BitVec.toNat_setWidth ..
  apply BitVec.eq_of_toNat_eq
  rw [low, toNat_path17_sub, BitVec.toNat_sub, BitVec.toNat_sub, toNat_ofNat_carryNat]
  omega

theorem sub16_carry (a b : Word) (c : Bool) : (sub16 a b c).c = decide (a.toNat < b.toNat + carryNat c) := by
  have ha := a.isLt
  have hb := b.isLt
  have hc := carryNat_le_one c
  have top : (path17 a - path17 b - bit17 c).getLsbD 16 = (path17 a - path17 b - bit17 c).msb :=
    (BitVec.msb_eq_getLsbD_last _).symm
  simp only [sub16, top, BitVec.msb_eq_decide, toNat_path17_sub, decide_eq_decide]
  omega

/-- Adding back what was subtracted, the borrow in included. -/
theorem add16_sub16 (a b : Word) (c : Bool) : (add16 (sub16 a b c).r b c).r = a := by
  rw [add16_r, sub16_r]; abel

/-- The carry out of the high halves is that of the 32-bit sum (41_arith.md R243). -/
theorem add16_append_add16_carry (ahi bhi alo blo : Word) :
    (add16 ahi bhi (add16 alo blo false).c).c =
      decide (2 ^ 32 ≤ (ahi ++ alo : BitVec 32).toNat + (bhi ++ blo : BitVec 32).toNat) := by
  have ha := alo.isLt
  have hb := blo.isLt
  rw [toNat_append_words, toNat_append_words, add16_carry, add16_carry, decide_eq_decide]
  by_cases h : 65536 ≤ alo.toNat + blo.toNat <;> simp [carryNat, h] <;> omega

/-! ### The signed overflow -/

theorem toInt_range (a : Word) : -32768 ≤ a.toInt ∧ a.toInt ≤ 32767 :=
  ⟨a.le_toInt, Int.lt_add_one_iff.1 a.toInt_lt⟩

/-- The signed result is the exact signed sum brought into range (92_eei_decisions.md D29). -/
theorem toInt_add16 (a b : Word) (c : Bool) :
    (add16 a b c).r.toInt = (a.toInt + b.toInt + carryNat c).bmod (2 ^ 16) := by
  rw [add16_r, BitVec.toInt_add, BitVec.toInt_add, toInt_ofNat_carryNat, Int.bmod_add_bmod]

theorem toInt_sub16 (a b : Word) (c : Bool) :
    (sub16 a b c).r.toInt = (a.toInt - b.toInt - carryNat c).bmod (2 ^ 16) := by
  rw [sub16_r, BitVec.toInt_sub, BitVec.toInt_sub, toInt_ofNat_carryNat, Int.bmod_sub_bmod]

theorem add16_v_eq_signs (a b : Word) (c : Bool) :
    (add16 a b c).v = decide (a.msb = b.msb ∧ (add16 a b c).r.msb ≠ a.msb) := by
  simp only [add16, Bool.decide_and, ne_eq, bne, decide_not, beq_eq_decide]

theorem sub16_v_eq_signs (a b : Word) (c : Bool) :
    (sub16 a b c).v = decide (a.msb ≠ b.msb ∧ (sub16 a b c).r.msb ≠ a.msb) := by
  simp only [sub16, Bool.decide_and, ne_eq, bne, decide_not, beq_eq_decide]

/-- The sign formula is the exact sum being out of range: each sign bit says that a signed value is negative, and the result
is the sum or differs from it by 2^16. -/
theorem add16_v (a b : Word) (c : Bool) : (add16 a b c).v = !fitsSigned (a.toInt + b.toInt + carryNat c) := by
  have ha := toInt_range a
  have hb := toInt_range b
  have hc := carryNat_le_one c
  rw [add16_v_eq_signs, fitsSigned, ← decide_not, decide_eq_decide]
  simp only [BitVec.msb_eq_toInt, toInt_add16, ne_eq, decide_eq_decide, Int.bmod_def]
  omega

/-- The same for the exact difference. -/
theorem sub16_v (a b : Word) (c : Bool) : (sub16 a b c).v = !fitsSigned (a.toInt - b.toInt - carryNat c) := by
  have ha := toInt_range a
  have hb := toInt_range b
  have hc := carryNat_le_one c
  rw [sub16_v_eq_signs, fitsSigned, ← decide_not, decide_eq_decide]
  simp only [BitVec.msb_eq_toInt, toInt_sub16, ne_eq, decide_eq_decide, Int.bmod_def]
  omega

/-! ### The sums, whole -/

theorem add16_eq (a b : Word) (c : Bool) :
    add16 a b c = { r := a + b + BitVec.ofNat 16 (carryNat c)
                    c := decide (65536 ≤ a.toNat + b.toNat + carryNat c)
                    v := !fitsSigned (a.toInt + b.toInt + carryNat c) } := by
  rw [← add16_r, ← add16_carry, ← add16_v]

theorem sub16_eq (a b : Word) (c : Bool) :
    sub16 a b c = { r := a - b - BitVec.ofNat 16 (carryNat c)
                    c := decide (a.toNat < b.toNat + carryNat c)
                    v := !fitsSigned (a.toInt - b.toInt - carryNat c) } := by
  rw [← sub16_r, ← sub16_carry, ← sub16_v]

theorem add16_false (a b : Word) :
    add16 a b false = { r := a + b
                        c := decide (65536 ≤ a.toNat + b.toNat)
                        v := !fitsSigned (a.toInt + b.toInt) } := by
  simp [add16_eq, carryNat]

theorem sub16_false (a b : Word) :
    sub16 a b false = { r := a - b
                        c := decide (a.toNat < b.toNat)
                        v := !fitsSigned (a.toInt - b.toInt) } := by
  simp [sub16_eq, carryNat]

/-! ### The sums of INC, DEC and NEG -/

theorem toInt_eq_least_iff (a : Word) : a.toInt = -32768 ↔ a = 0x8000 := BitVec.toInt_inj (y := 0x8000)

theorem not_fitsSigned_add_one (a : Word) : (!fitsSigned (a.toInt + 1)) = decide (a = 0x7FFF) := by
  have range := toInt_range a
  have largest : a.toInt = 32767 ↔ a = 0x7FFF := BitVec.toInt_inj (y := 0x7FFF)
  rw [fitsSigned, ← decide_not, decide_eq_decide, ← largest]
  omega

theorem not_fitsSigned_sub_one (a : Word) : (!fitsSigned (a.toInt - 1)) = decide (a = 0x8000) := by
  have range := toInt_range a
  rw [fitsSigned, ← decide_not, decide_eq_decide, ← toInt_eq_least_iff]
  omega

theorem not_fitsSigned_neg (a : Word) : (!fitsSigned (-a.toInt)) = decide (a = 0x8000) := by
  have range := toInt_range a
  rw [fitsSigned, ← decide_not, decide_eq_decide, ← toInt_eq_least_iff]
  omega

theorem add16_one (a : Word) :
    add16 a 1 false = { r := a + 1, c := decide (a = 0xFFFF), v := decide (a = 0x7FFF) } := by
  have wraps : 65536 ≤ a.toNat + 1 ↔ a = 0xFFFF := by bv_omega
  rw [← not_fitsSigned_add_one, ← decide_eq_decide.2 wraps]
  exact add16_false a 1

theorem sub16_one (a : Word) :
    sub16 a 1 false = { r := a - 1, c := decide (a = 0), v := decide (a = 0x8000) } := by
  have borrows : a.toNat < 1 ↔ a = 0 := by bv_omega
  rw [← not_fitsSigned_sub_one, ← decide_eq_decide.2 borrows]
  exact sub16_false a 1

theorem sub16_zero_left (a : Word) :
    sub16 0 a false = { r := -a, c := decide (a ≠ 0), v := decide (a = 0x8000) } := by
  have borrows : 0 < a.toNat ↔ a ≠ 0 := by bv_omega
  rw [← not_fitsSigned_neg, ← decide_eq_decide.2 borrows, ← zero_sub a, ← zero_sub a.toInt]
  exact sub16_false 0 a

/-! ### Flags field by field -/

theorem incDecFlags_eq (k : Config.IncDecCf) (f : Flags) (x : Sum) :
    incDecFlags k f x = { CF := if k = .preserve then f.CF else x.c, AF := false, ZF := decide (x.r = 0), SF := x.r.msb,
                          OF := x.v, IF := f.IF } := by
  cases k <;> rfl

/-- The flags of NEG by its operand: the result is zero exactly where the operand is (41_arith.md R288). -/
theorem negFlags_sub16_zero_left (f : Flags) (a : Word) (u : Bool) :
    negFlags f (sub16 0 a false) u = { CF := decide (a ≠ 0), AF := u, ZF := decide (a = 0), SF := (-a).msb,
                                       OF := decide (a = 0x8000), IF := f.IF } := by
  have zero : -a = 0 ↔ a = 0 := neg_eq_zero
  rw [sub16_zero_left, ← decide_eq_decide.2 zero]
  rfl

/-! ### Instructions that make one sum -/

/-- An ALU instruction with a destination whose operation makes the sum `x` of its operands (41_arith.md R242). -/
theorem exec_form_of_arithOut {m : AluForm} {op : AluOp} {i : Instr} {s : State} {b : Word} {x : Sum}
    (hi : m.instr op = some i) (hb : m.second s = some b) (hop : op ≠ .cmp)
    (hx : aluOut s.params.shiftCount op (m.first s) b s.fr s.freeCount = arithOut s.fr x b) :
    ∃ t, exec i s = .next t ∧ t.reg m.dest = (if m.dest = 0 then 0 else x.r) ∧
      t.fr = { CF := x.c, AF := b.msb, ZF := decide (x.r = 0), SF := x.r.msb, OF := x.v, IF := s.fr.IF } ∧
      t.pc = s.pc + m.length ∧ t.hr = s.hr ∧ Frame [m.dest] [] s t := by
  refine ⟨_, exec_form_of_second hi hb, ?_, ?_, alu_pc .., alu_hr .., alu_frame ..⟩
  · rw [reg_alu_dest hop, hx]; rfl
  · rw [alu_fr, hx]; rfl

/-- An instruction that writes one register and the flags, draws `k` undefined bits and moves the pc on. -/
theorem exec_of_setReg_withFr {i : Instr} {s : State} {r : RegNum} {v len : Word} {f : Flags} {k : Nat}
    (run : exec i s = .next ((((s.setReg r v).withFr f).drawn k).advance len)) :
    ∃ t, exec i s = .next t ∧ t.reg r = (if r = 0 then 0 else v) ∧ t.fr = f ∧ t.pc = s.pc + len ∧ t.hr = s.hr ∧
      Frame [r] [] s t := by
  obtain ⟨regs, bytes, written, icache, dcache, irq, params⟩ := setReg_frame s r v
  exact ⟨_, run, State.reg_setReg_dest s r v, rfl, by simp, by simp, regs, bytes, written, icache, dcache, irq, params⟩

/-- INC and DEC are one sum, whose carry goes to CF as `INCDEC_CF` says (41_arith.md R286, R287). -/
theorem exec_of_incDecFlags {i : Instr} {rA : RegNum} {s : State} {x : Sum}
    (run : exec i s = .next (((s.setReg rA x.r).withFr (incDecFlags s.params.incDecCf s.fr x)).advance 2)) :
    ∃ t, exec i s = .next t ∧ t.reg rA = (if rA = 0 then 0 else x.r) ∧
      t.fr = { CF := if s.params.incDecCf = .preserve then s.fr.CF else x.c, AF := false, ZF := decide (x.r = 0),
               SF := x.r.msb, OF := x.v, IF := s.fr.IF } ∧
      t.pc = s.pc + 2 ∧ t.hr = s.hr ∧ Frame [rA] [] s t := by
  rw [← incDecFlags_eq]
  exact exec_of_setReg_withFr (k := 0) run

/-! ### The obligations -/

/-- Settles O2: the 17 bits hold the whole sum, and the sign formula is that the signed sum is out of range. -/
theorem add16IsTheExactSum : Obligations.Add16IsTheExactSum := fun a b c =>
  ⟨toNat_add16 a b c, add16_carry a b c, add16_v a b c, add16_v_eq_signs a b c⟩

/-- Settles O3, as O2; bit 16 of the difference is its borrow. -/
theorem sub16IsTheExactDifference : Obligations.Sub16IsTheExactDifference := fun a b c =>
  ⟨add16_sub16 a b c, sub16_r a b c, sub16_carry a b c, sub16_v a b c, sub16_v_eq_signs a b c⟩

/-- Settles O6: ADD makes the sum without a carry in. -/
theorem addInEveryForm : Obligations.AddInEveryForm := by
  intro m i s b hi hb a r
  exact exec_form_of_arithOut hi hb (by decide) (congrArg (arithOut s.fr · b) (add16_false a b))

/-- Settles O7: ADC makes the sum with CF as the carry in. -/
theorem adcInEveryForm : Obligations.AdcInEveryForm := by
  intro m i s b hi hb a c r
  exact exec_form_of_arithOut hi hb (by decide) (congrArg (arithOut s.fr · b) (add16_eq a b s.fr.CF))

/-- Settles O8: SUB makes the difference without a borrow in. -/
theorem subInEveryForm : Obligations.SubInEveryForm := by
  intro m i s b hi hb a r
  exact exec_form_of_arithOut hi hb (by decide) (congrArg (arithOut s.fr · b) (sub16_false a b))

/-- Settles O9: SBB makes the difference with CF as the borrow in. -/
theorem sbbInEveryForm : Obligations.SbbInEveryForm := by
  intro m i s b hi hb a c r
  exact exec_form_of_arithOut hi hb (by decide) (congrArg (arithOut s.fr · b) (sub16_eq a b s.fr.CF))

/-- Settles O10: CMP has the flags of SUB, and its difference is zero exactly where the operands are equal. -/
theorem cmpWritesOnlyFlagsInEveryForm : Obligations.CmpWritesOnlyFlagsInEveryForm := by
  intro m i s b hi hb a
  have equal : a - b = 0 ↔ a = b := sub_eq_zero
  refine ⟨_, exec_form_of_second hi hb, ?_, alu_pc .., alu_hr .., alu_cmp_frame ..⟩
  rw [alu_fr]
  change arithFlags s.fr (sub16 a b false) b = _
  rw [sub16_false, ← decide_eq_decide.2 equal]
  rfl

/-- Settles O11: INC is the sum with 1 and DEC the difference from 1, whose carry and overflow single out one operand
each. -/
theorem incDecCarryByItsParameter : Obligations.IncDecCarryByItsParameter := by
  intro rA s keeps
  have inc := exec_of_incDecFlags (i := .inc rA) (x := add16 (s.reg rA) 1 false) rfl
  have dec := exec_of_incDecFlags (i := .dec rA) (x := sub16 (s.reg rA) 1 false) rfl
  rw [add16_one] at inc
  rw [sub16_one] at dec
  exact ⟨inc, dec⟩

/-- Settles O12: NEG is the difference from 0, with the next drawn bit as AF. -/
theorem negIsTwosComplement : Obligations.NegIsTwosComplement := by
  intro rA s imm
  obtain ⟨decodes, -⟩ := decodeWords_ofNibbles 3 rA 1 imm
  obtain ⟨t, run, dest, flags, rest⟩ := exec_of_setReg_withFr (i := .neg rA) (s := s) (k := 1) rfl
  rw [sub16_zero_left] at dest
  rw [negFlags_sub16_zero_left] at flags
  exact ⟨decodes, t, _, run, dest, flags, rest⟩

/-- Settles O46: the second addition takes in the carry of the first and finds its own operands unchanged. -/
theorem addThenAdcAddsDoubleWords : Obligations.AddThenAdcAddsDoubleWords := by
  intro lo hi slo shi s hlo hhi hne hshi x y
  let t := alu .add lo (s.reg lo) (s.reg slo) 2 s
  let u := alu .adc hi (t.reg hi) (t.reg shi) 2 t
  have first : Frame [lo] [] s t := alu_frame ..
  have high : t.reg hi = s.reg hi := first.registers hi (by simpa using hne)
  have source : t.reg shi = s.reg shi := first.registers shi (by simpa using hshi)
  have carry : t.fr.CF = (add16 (s.reg lo) (s.reg slo) false).c := by rw [alu_fr]; rfl
  have carry' : u.fr.CF = (add16 (t.reg hi) (t.reg shi) t.fr.CF).c := by rw [alu_fr]; rfl
  refine ⟨t, u, rfl, rfl, ?_, ?_, first.trans (alu_frame .adc hi _ _ _ t)⟩
  · rw [reg_append_of_add_adc hlo hhi hne rfl rfl, source]
  · rw [carry', high, source, carry, add16_append_add16_carry]

end Sys2Proof.Machine
end

section
/-! Logic (O14, O15, O16). AND, OR and XOR differ in their value and in OF alone, so that their forms are settled once, over the
value and OF. NOT is one write of a register.
-/
namespace Sys2Proof.Machine

/-- An ALU instruction with a destination whose operation gives the value `r` and the flags of logic with OF `v`, however many
bits it draws (42_logic.md R330). -/
theorem exec_form_of_logicFlags {m : AluForm} {op : AluOp} {i : Instr} {s : State} {b r : Word} {v : Bool}
    (hi : m.instr op = some i) (hb : m.second s = some b) (hop : op ≠ .cmp)
    (value : (aluOut s.params.shiftCount op (m.first s) b s.fr s.freeCount).value = r)
    (flags : (aluOut s.params.shiftCount op (m.first s) b s.fr s.freeCount).flags = logicFlags s.fr r b v) :
    ∃ t, exec i s = .next t ∧ t.reg m.dest = (if m.dest = 0 then 0 else r) ∧
      t.fr = { CF := false, AF := b.msb, ZF := decide (r = 0), SF := r.msb, OF := v, IF := s.fr.IF } ∧
      t.pc = s.pc + m.length ∧ t.hr = s.hr ∧ Frame [m.dest] [] s t := by
  refine ⟨_, exec_form_of_second hi hb, ?_, ?_, alu_pc .., alu_hr .., alu_frame ..⟩
  · rw [reg_alu_dest hop, value]; rfl
  · rw [alu_fr, flags]; rfl

/-! ### The obligations -/

/-- Settles O14: the OF of AND is the next drawn bit. -/
theorem andInEveryForm : Obligations.AndInEveryForm := by
  intro m i s b hi hb r
  obtain ⟨t, completes⟩ := exec_form_of_logicFlags (r := r) (v := Config.freeBit s.freeCount) hi hb (by decide) rfl rfl
  exact ⟨t, _, completes⟩

/-- Settles O15: OR and XOR clear OF. -/
theorem orXorInEveryForm : Obligations.OrXorInEveryForm := by
  intro m i j s b hi hj hb r x
  exact ⟨exec_form_of_logicFlags hi hb (by decide) rfl rfl, exec_form_of_logicFlags hj hb (by decide) rfl rfl⟩

/-- Settles O16: the complement of each bit is the difference from all ones, and NOT leaves the flag register as it is. -/
theorem notComplementsAndKeepsFlags : Obligations.NotComplementsAndKeepsFlags := by
  intro rA s imm
  obtain ⟨decodes, -⟩ := decodeWords_ofNibbles 3 rA 0 imm
  have complement : 0xFFFF - s.reg rA = ~~~(s.reg rA) := BitVec.allOnes_sub_eq_not _
  have run : exec (.not rA) s = .next ((s.setReg rA (~~~(s.reg rA))).advance 2) := rfl
  rw [complement]
  exact ⟨decodes, _, run, State.reg_setReg_dest s rA _, by simp, by simp, by simp, (setReg_frame s rA _).withPcFr _ _⟩

end Sys2Proof.Machine
end

section
/-! Shifts and rotates (O4, O17). A closed form follows from one equation, that a count of n + 1 is one more step after a count
of n. The three shifts and ROR take no carry in, and their values are the library's shifts and rotates; RLC and RRC are the
library's rotates of the 17 bits `{CF, a}`. An instruction then only says which operation it repeats.
-/
namespace Sys2Proof.Machine

/-! ### Repeated steps -/

theorem shiftSteps_eq_iterate (op : AluOp) (n : Nat) (x : Word × Bool) : shiftSteps op n x = (shiftStep op)^[n] x := by
  induction n generalizing x with
  | zero => rfl
  | succ n ih => exact ih _

/-- What makes one more step for each unit of the count makes as many steps as the count says. -/
theorem eq_shiftSteps {op : AluOp} {F : Nat → Word × Bool} {x : Word × Bool} (zero : F 0 = x)
    (succ : ∀ n, F (n + 1) = shiftStep op (F n)) (n : Nat) : F n = shiftSteps op n x := by
  rw [shiftSteps_eq_iterate]
  induction n with
  | zero => exact zero
  | succ n ih => rw [succ, ih, Function.iterate_succ_apply']

/-! ### The bit that a one-bit step puts in -/

theorem getElem_shiftLeft_or_bit (d : Word) (b : Bool) {i : Nat} (hi : i < 16) :
    (d <<< 1 ||| if b then 1 else 0)[i] = if i = 0 then b else d[i - 1] := by
  have low : (if b then 1 else 0 : Word)[i] = (b && decide (i = 0)) := by cases b <;> simp [BitVec.getElem_one]
  rw [BitVec.getElem_or, BitVec.getElem_shiftLeft, low]
  by_cases h : i = 0 <;> simp [h]

theorem getElem_ushiftRight_or_bit (d : Word) (b : Bool) {i : Nat} (hi : i < 16) :
    (d >>> 1 ||| if b then 0x8000 else 0)[i] = if h : 1 + i < 16 then d[1 + i] else b := by
  have power : (0x8000 : Word) = BitVec.twoPow 16 15 := rfl
  have top : (if b then 0x8000 else 0 : Word)[i] = (b && decide (i = 15)) := by
    cases b <;> simp [power, BitVec.getElem_twoPow]
  rw [BitVec.getElem_or, BitVec.getElem_ushiftRight, top]
  by_cases h : i = 15
  · simp [h]
  · have inside : 1 + i < 16 := by omega
    simp [h, inside]

/-! ### Rotates of any count -/

theorem getElem_rotateRight_eq_mod {w : Nat} (x : BitVec w) (n : Nat) {i : Nat} (hi : i < w) :
    (x.rotateRight n)[i] = x[(i + n) % w]'(Nat.mod_lt _ (by omega)) := by
  have small := Nat.mod_lt n (by omega : 0 < w)
  simp only [BitVec.getElem_rotateRight, Nat.add_mod_eq_ite (m := i), Nat.mod_eq_of_lt hi]
  split_ifs <;> (congr 1; omega)

theorem rotateRight_zero {w : Nat} (x : BitVec w) : x.rotateRight 0 = x := by
  ext i hi
  simp only [getElem_rotateRight_eq_mod, Nat.add_zero, Nat.mod_eq_of_lt hi]

theorem rotateRight_succ {w : Nat} (x : BitVec w) (n : Nat) :
    x.rotateRight (n + 1) = (x.rotateRight n).rotateRight 1 := by
  ext i hi
  simp only [getElem_rotateRight_eq_mod, Nat.mod_add_mod, Nat.add_assoc, Nat.add_comm 1]

theorem rotateLeft_zero (v : BitVec 17) : v.rotateLeft 0 = v := by
  ext i hi
  simp [BitVec.getElem_rotateLeft]

theorem rotateLeft_succ (v : BitVec 17) (n : Nat) : v.rotateLeft (n + 1) = (v.rotateLeft n).rotateLeft 1 := by
  ext i hi
  simp only [BitVec.getElem_rotateLeft]
  split_ifs <;> (congr 1; omega)

/-! ### The shifts -/

section
variable (a : Word) (c : Bool) (n : Nat)

theorem shl16_fst : (shl16 a c n).1 = a <<< n := by
  unfold shl16
  split_ifs with zero inside
  · rw [zero, BitVec.shiftLeft_zero]
  · rfl
  · exact (BitVec.shiftLeft_eq_zero (by omega)).symm

theorem shl16_succ_snd : (shl16 a c (n + 1)).2 = (a <<< n).getLsbD 15 := by
  by_cases inside : n + 1 ≤ 16
  · have bit : 16 - (n + 1) = 15 - n := by omega
    have low : ¬ 15 < n := by omega
    simp [shl16, inside, bit, low, -BitVec.getLsbD_eq_getElem]
  · have high : 15 < n := by omega
    simp [shl16, inside, high]

theorem shl16_succ : shl16 a c (n + 1) = shiftStep .shl (shl16 a c n) :=
  Prod.ext (by rw [shl16_fst, BitVec.shiftLeft_add, ← shl16_fst a c n]; rfl)
    (by rw [shl16_succ_snd, ← shl16_fst a c n]; rfl)

theorem shr16_fst : (shr16 a c n).1 = a >>> n := by
  unfold shr16
  split_ifs with zero inside
  · rw [zero, BitVec.ushiftRight_zero]
  · rfl
  · exact (BitVec.ushiftRight_eq_zero (by omega)).symm

theorem shr16_succ_snd : (shr16 a c (n + 1)).2 = (a >>> n).getLsbD 0 := by
  by_cases inside : n + 1 ≤ 16
  · simp [shr16, inside]
  · have beyond : 16 ≤ n := by omega
    simp [shr16, inside, beyond]

theorem shr16_succ : shr16 a c (n + 1) = shiftStep .shr (shr16 a c n) :=
  Prod.ext (by rw [shr16_fst, BitVec.shiftRight_add, ← shr16_fst a c n]; rfl)
    (by rw [shr16_succ_snd, ← shr16_fst a c n]; rfl)

/-- A shift by 16 or more leaves copies of the sign bit. -/
theorem asr16_fst : (asr16 a c n).1 = a.sshiftRight n := by
  have ones : (0xFFFF : Word) = BitVec.allOnes 16 := rfl
  unfold asr16
  split_ifs with zero inside negative
  · rw [zero, BitVec.sshiftRight_zero]
  · rfl
  all_goals
    have beyond (i : Nat) : ¬ n + i < 16 := by omega
    ext i hi
    simp [BitVec.getElem_sshiftRight, beyond, negative, ones, -BitVec.reduceAllOnes]

/-- Bit 15, the last one shifted out, is the sign bit. -/
theorem asr16_succ_snd : (asr16 a c (n + 1)).2 = (a.sshiftRight n).getLsbD 0 := by
  rw [BitVec.getLsbD_sshiftRight]
  rcases lt_trichotomy n 15 with below | rfl | above
  · have inside : n < 16 := by omega
    simp [asr16, Nat.succ_le_of_lt below, inside]
  · simp [asr16, BitVec.msb_eq_getLsbD_last]
  · have beyond : ¬ n < 16 := by omega
    have past : ¬ n + 1 ≤ 15 := by omega
    simp [asr16, past, beyond]

theorem shiftStep_asr (x : Word × Bool) : shiftStep .asr x = (x.1.sshiftRight 1, x.1.getLsbD 0) := by
  refine Prod.ext (BitVec.eq_of_getElem_eq fun i hi => ?_) rfl
  rw [BitVec.getElem_sshiftRight, BitVec.msb_eq_getLsbD_last]
  exact getElem_ushiftRight_or_bit ..

theorem asr16_succ : asr16 a c (n + 1) = shiftStep .asr (asr16 a c n) := by
  rw [shiftStep_asr, asr16_fst, ← BitVec.sshiftRight_add, ← asr16_succ_snd a c n, ← asr16_fst a c]

/-! ### The rotate of 16 bits -/

theorem ror16_fst : (ror16 a c n).1 = a.rotateRight n := by
  unfold ror16
  split_ifs with zero
  · rw [zero, rotateRight_zero]
  · rfl

/-- The bit moved in at the top is also the carry (43_shift_rotate.md R383). -/
theorem shiftStep_ror (x : Word × Bool) : shiftStep .ror x = (x.1.rotateRight 1, (x.1.rotateRight 1).msb) := by
  have carry : x.1.getLsbD 0 = (x.1.rotateRight 1).msb := by
    simp [BitVec.msb_eq_getLsbD_last, BitVec.getElem_rotateRight]
  refine Prod.ext (BitVec.eq_of_getElem_eq fun i hi => ?_) carry
  refine (getElem_ushiftRight_or_bit ..).trans ?_
  rw [BitVec.getElem_rotateRight]
  split_ifs with inside below
  · rfl
  · omega
  · omega
  · have top : i = 15 := by omega
    subst top; rfl

theorem ror16_succ : ror16 a c (n + 1) = shiftStep .ror (ror16 a c n) := by
  rw [shiftStep_ror, ror16_fst, ← rotateRight_succ]
  exact if_neg n.succ_ne_zero

/-! ### The rotates of 17 bits -/

/-- The value and the carry in the 17 bits that RLC and RRC rotate; `withCarry` puts them together. -/
def splitCarry (v : BitVec 17) : Word × Bool := (v.setWidth 16, v.getLsbD 16)

theorem withCarry_splitCarry (v : BitVec 17) : withCarry (splitCarry v).2 (splitCarry v).1 = v :=
  BitVec.cons_msb_setWidth v

theorem getElem_withCarry {i : Nat} (hi : i < 17) : (withCarry c a)[i] = if h : i = 16 then c else a[i] :=
  BitVec.getElem_cons hi

theorem splitCarry_withCarry : splitCarry (withCarry c a) = (a, c) :=
  Prod.ext (BitVec.setWidth_cons ..) (getElem_withCarry a c (i := 16) (by decide))

theorem rlc16_eq_splitCarry : rlc16 a c n = splitCarry ((withCarry c a).rotateLeft n) := rfl

theorem rrc16_eq_splitCarry : rrc16 a c n = splitCarry ((withCarry c a).rotateRight n) := rfl

theorem shiftStep_rlc (x : Word × Bool) : shiftStep .rlc x = splitCarry ((withCarry x.2 x.1).rotateLeft 1) := by
  have value {i : Nat} (hi : i < 16) :
      (if i = 0 then x.2 else x.1[i - 1]) = ((withCarry x.2 x.1).rotateLeft 1)[i] := by
    simp only [BitVec.getElem_rotateLeft, getElem_withCarry]
    by_cases zero : i = 0
    · subst zero; rfl
    · have low : i - 1 ≠ 16 := by omega
      simp [zero, low]
  have carry : x.1[15] = ((withCarry x.2 x.1).rotateLeft 1)[16] := by
    simp only [BitVec.getElem_rotateLeft, getElem_withCarry]; rfl
  exact Prod.ext (BitVec.eq_of_getElem_eq fun i hi =>
    (getElem_shiftLeft_or_bit ..).trans ((value hi).trans (BitVec.getElem_setWidth ..).symm)) carry

theorem shiftStep_rrc (x : Word × Bool) : shiftStep .rrc x = splitCarry ((withCarry x.2 x.1).rotateRight 1) := by
  have value {i : Nat} (hi : i < 16) :
      (if h : 1 + i < 16 then x.1[1 + i] else x.2) = ((withCarry x.2 x.1).rotateRight 1)[i] := by
    simp only [BitVec.getElem_rotateRight, getElem_withCarry]
    by_cases top : i = 15
    · subst top; rfl
    · have inside : 1 + i < 16 := by omega
      simp [hi, inside, inside.ne]
  have carry : x.1[0] = ((withCarry x.2 x.1).rotateRight 1)[16] := by
    simp only [BitVec.getElem_rotateRight, getElem_withCarry]; rfl
  exact Prod.ext (BitVec.eq_of_getElem_eq fun i hi =>
    (getElem_ushiftRight_or_bit ..).trans ((value hi).trans (BitVec.getElem_setWidth ..).symm)) carry

theorem rlc16_succ : rlc16 a c (n + 1) = shiftStep .rlc (rlc16 a c n) := by
  rw [shiftStep_rlc, rlc16_eq_splitCarry, rlc16_eq_splitCarry, withCarry_splitCarry, rotateLeft_succ]

theorem rrc16_succ : rrc16 a c (n + 1) = shiftStep .rrc (rrc16 a c n) := by
  rw [shiftStep_rrc, rrc16_eq_splitCarry, rrc16_eq_splitCarry, withCarry_splitCarry, rotateRight_succ]

/-! ### The closed forms are the repeated steps -/

theorem shl16_eq_shiftSteps : shl16 a c n = shiftSteps .shl n (a, c) := eq_shiftSteps rfl (shl16_succ a c) n

theorem shr16_eq_shiftSteps : shr16 a c n = shiftSteps .shr n (a, c) := eq_shiftSteps rfl (shr16_succ a c) n

theorem asr16_eq_shiftSteps : asr16 a c n = shiftSteps .asr n (a, c) := eq_shiftSteps rfl (asr16_succ a c) n

theorem ror16_eq_shiftSteps : ror16 a c n = shiftSteps .ror n (a, c) := eq_shiftSteps rfl (ror16_succ a c) n

theorem rlc16_eq_shiftSteps : rlc16 a c n = shiftSteps .rlc n (a, c) :=
  eq_shiftSteps (by rw [rlc16_eq_splitCarry, rotateLeft_zero, splitCarry_withCarry]) (rlc16_succ a c) n

theorem rrc16_eq_shiftSteps : rrc16 a c n = shiftSteps .rrc n (a, c) :=
  eq_shiftSteps (by rw [rrc16_eq_splitCarry, rotateRight_zero, splitCarry_withCarry]) (rrc16_succ a c) n

end

/-- A shift or rotate gives what its one-bit steps give, and draws one bit for OF (43_shift_rotate.md R381, R383). -/
theorem aluOut_of_shifts {op : AluOp} (h : op.shifts = true) (k : Config.ShiftCount) (a b : Word) (f : Flags) (n : Nat) :
    aluOut k op a b f n = shiftOut f (shiftSteps op (shiftCount k b) (a, f.CF)) b n := by
  cases op <;> simp only [AluOp.shifts, Bool.false_eq_true] at h <;> rw [aluOut]
  case shl => rw [shl16_eq_shiftSteps]
  case shr => rw [shr16_eq_shiftSteps]
  case asr => rw [asr16_eq_shiftSteps]
  case ror => rw [ror16_eq_shiftSteps]
  case rlc => rw [rlc16_eq_shiftSteps]
  case rrc => rw [rrc16_eq_shiftSteps]

/-! ### The obligations -/

/-- Settles O4: each closed form takes one more step when the count grows by one. -/
theorem shiftClosedFormsAreRepeatedSteps : Obligations.ShiftClosedFormsAreRepeatedSteps := fun a c n =>
  ⟨shl16_eq_shiftSteps a c n, shr16_eq_shiftSteps a c n, asr16_eq_shiftSteps a c n, ror16_eq_shiftSteps a c n,
    rlc16_eq_shiftSteps a c n, rrc16_eq_shiftSteps a c n⟩

/-- Settles O17: the OF is the next drawn bit. -/
theorem shiftsRepeatTheStepInEveryForm : Obligations.ShiftsRepeatTheStepInEveryForm := by
  intro op m i s b shifts hi hb count x
  have out : aluOut s.params.shiftCount op (m.first s) b s.fr s.freeCount = shiftOut s.fr x b s.freeCount :=
    aluOut_of_shifts shifts ..
  have hop : op ≠ .cmp := by rintro rfl; cases shifts
  refine ⟨_, Config.freeBit s.freeCount, exec_form_of_second hi hb, ?_, ?_, alu_pc .., alu_hr .., alu_frame ..⟩
  · rw [reg_alu_dest hop, out]; rfl
  · rw [alu_fr, out]; rfl

end Sys2Proof.Machine
end

section
/-! Multiplication (O18, O19). A product of two words fits the 32 bits in either reading, so that its halves, which
`multiply` writes to rA and HR0, are those of the exact product. What `multiply` leaves is said once, for any product and
carry; the two instructions then differ in how they read the product and in CF.
-/
namespace Sys2Proof.Machine

/-! ### The halves of 32 bits -/

theorem highHalf_append_lowHalf (p : BitVec 32) : (highHalf p ++ lowHalf p : BitVec 32) = p :=
  (BitVec.extractLsb'_append_extractLsb'_eq_extractLsb' rfl).trans BitVec.extractLsb'_eq_self

theorem lowHalf_eq_ofNat (p : BitVec 32) : lowHalf p = BitVec.ofNat 16 (p.toNat % 65536) :=
  BitVec.eq_of_toNat_eq (by simp [lowHalf])

theorem highHalf_eq_ofNat (p : BitVec 32) : highHalf p = BitVec.ofNat 16 (p.toNat / 65536) :=
  BitVec.eq_of_toNat_eq (by simp [highHalf, Nat.shiftRight_eq_div_pow])

/-- The low half is the same for a signed and for an unsigned reading. -/
theorem lowHalf_eq_ofInt (p : BitVec 32) : lowHalf p = BitVec.ofInt 16 p.toInt := by
  have divides : 2 ^ 16 ∣ 2 ^ 32 := by decide
  apply BitVec.eq_of_toInt_eq
  rw [BitVec.toInt_ofInt, BitVec.toInt_eq_toNat_bmod p, Int.bmod_bmod_of_dvd divides, lowHalf,
    ← BitVec.setWidth_eq_extractLsb' (by decide), BitVec.toInt_setWidth]

/-- The high half is significant exactly where the number does not fit 16 bits. -/
theorem highHalf_bne_zero (p : BitVec 32) : (highHalf p != 0) = decide (65536 ≤ p.toNat) := by
  have whole : p.toNat = (highHalf p).toNat * 65536 + (lowHalf p).toNat := by
    rw [← toNat_append_words, highHalf_append_lowHalf]
  have low := (lowHalf p).isLt
  have significant : highHalf p ≠ 0 ↔ 65536 ≤ p.toNat := by bv_omega
  rw [← decide_eq_decide.2 significant, decide_not]; rfl

/-! ### The product of two words -/

theorem toNat_mulUnsigned (a b : Word) : (mulUnsigned a b).toNat = a.toNat * b.toNat :=
  (BitVec.toNat_ofNat ..).trans (Nat.mod_eq_of_lt BitVec.toNat_mul_toNat_lt)

/-- The extreme product is 2^30, of the least word with itself (44_multiply.md R460). -/
theorem toInt_mulSigned (a b : Word) : (mulSigned a b).toInt = a.toInt * b.toInt := by
  have least : -2 ^ 30 ≤ a.toInt * b.toInt := BitVec.le_toInt_mul_toInt
  have largest : a.toInt * b.toInt ≤ 2 ^ 30 := BitVec.toInt_mul_toInt_le
  rw [mulSigned, BitVec.toInt_ofInt]
  exact Int.bmod_eq_of_le (by omega) (by omega)

/-! ### The instructions -/

/-- What a multiplication with product `p` and carry `c` leaves (44_multiply.md R460, R461). -/
theorem exec_of_multiply {i : Instr} {rA : RegNum} {p : BitVec 32} {c : Bool} {s : State}
    (run : exec i s = .next (multiply rA p c s)) :
    ∃ t u v, exec i s = .next t ∧ t.reg rA = (if rA = 0 then 0 else lowHalf p) ∧ t.hr0 = highHalf p ∧
      t.fr = { CF := c, AF := u, ZF := decide (lowHalf p = 0), SF := (lowHalf p).msb, OF := v, IF := s.fr.IF } ∧
      t.pc = s.pc + 2 ∧ (∀ k, k ≠ 0 → t.hidden k = s.hidden k) ∧ Frame [rA] [] s t := by
  obtain ⟨regs, bytes, written, icache, dcache, irq, params⟩ := setReg_frame s rA (lowHalf p)
  exact ⟨_, _, _, run, State.reg_setReg_dest s rA _, State.hr0_withHr0 .., rfl, by simp [multiply],
    fun _ => hidden_multiply, regs, bytes, written, icache, dcache, irq, params⟩

/-! ### The obligations -/

/-- Settles O18: MULU ends with the unsigned product, and its CF is that the high half is significant. -/
theorem muluGivesTheUnsignedProduct : Obligations.MuluGivesTheUnsignedProduct := by
  intro rA rB s imm p lo
  let q := mulUnsigned (s.reg rA) (s.reg rB)
  have product : q.toNat = p := toNat_mulUnsigned ..
  have low : lowHalf q = lo := by rw [lowHalf_eq_ofNat, product]
  have carry : (highHalf q != 0) = decide (65536 ≤ p) := by rw [highHalf_bne_zero, product]
  obtain ⟨decodes, -⟩ := decodeWords_ofNibbles 8 rA rB imm
  obtain ⟨t, u, v, run, dest, high, flags, rest⟩ := exec_of_multiply (i := .mulu rA rB) (s := s) rfl
  refine ⟨decodes, t, u, v, run, low ▸ dest, ?_, ?_, ?_, rest⟩
  · rw [high, highHalf_eq_ofNat, product]
  · rw [high, ← low, ← toNat_append_words, highHalf_append_lowHalf, product]
  · rw [← low, ← carry]; exact flags

/-- Settles O19: MULS ends with the signed product, and its CF is what the obligation says of HR0. -/
theorem mulsGivesTheSignedProduct : Obligations.MulsGivesTheSignedProduct := by
  intro rA rB s imm p lo
  let q := mulSigned (s.reg rA) (s.reg rB)
  have product : q.toInt = p := toInt_mulSigned ..
  have low : lowHalf q = lo := by rw [lowHalf_eq_ofInt, product]
  obtain ⟨decodes, -⟩ := decodeWords_ofNibbles 9 rA rB imm
  obtain ⟨t, u, v, run, dest, high, flags, rest⟩ := exec_of_multiply (i := .muls rA rB) (s := s) rfl
  have carry : decide (t.hr0 ≠ 0 ∧ t.hr0 ≠ 0xFFFF) = (highHalf q != 0 && highHalf q != 0xFFFF) := by
    rw [high, Bool.decide_and, decide_not, decide_not]; rfl
  refine ⟨decodes, t, u, v, run, low ▸ dest, ?_, ?_, rest⟩
  · rw [high, ← low, highHalf_append_lowHalf, product]
  · rw [← low, carry]; exact flags

end Sys2Proof.Machine
end

section
/-! Control transfer (O26 to O33). Every conditional jump is one branch on a condition over the flags; after CMP that condition
is a comparison of the operands, the signed ones because sign and overflow of a difference together are the sign of the
exact difference (`sign_eq_overflow_iff`). The three calls are settled once, over the address pushed and the target, the two
returns once, over the flags they leave.
-/
namespace Sys2Proof.Machine

/-! ### The jumps: encoding and branch -/

theorem decodeWords_jump (n1 n2 n3 : Nibble) (imm : Word) :
    decodeWords (ofNibbles 9 n1 n2 n3) imm = decodeJump n1 n2 imm := by
  simp only [decodeWords_ofNibbles]

/-- The printed 0 in N2 of the jumps is required (30_encoding.md R121; 92_eei_decisions.md D14). -/
theorem decodeWords_jump_eq_none (n1 : Nibble) {n2 : Nibble} (h : n2 ≠ 0) (n3 : Nibble) (imm : Word) :
    decodeWords (ofNibbles 9 n1 n2 n3) imm = none :=
  (decodeWords_jump n1 n2 n3 imm).trans (if_neg h)

theorem jumpIf_eq_branch (c : Bool) (o : Word) (s : State) : jumpIf c o s = .next (s.branch c o) := by
  cases c <;> rfl

/-- A conditional jump, its condition said as a proposition. -/
theorem exec_of_jumpIf {i : Instr} {s : State} {o : Word} {c : Bool} {p : Prop} [Decidable p]
    (run : exec i s = jumpIf c o s) (h : c = true ↔ p) : exec i s = .next (s.branch (decide p) o) := by
  have condition : c = decide p := Bool.eq_iff_iff.2 (h.trans decide_eq_true_iff.symm)
  rw [run, jumpIf_eq_branch, condition]

/-! ### The flags of a comparison -/

/-- Where the difference is out of range its sign is the wrong one, and elsewhere it is the right one. -/
theorem sign_eq_overflow_iff (a b : Word) :
    (a - b).msb = (!fitsSigned (a.toInt - b.toInt)) ↔ b.toInt ≤ a.toInt := by
  have ha := toInt_range a
  have hb := toInt_range b
  rw [fitsSigned, ← decide_not, BitVec.msb_eq_toInt, decide_eq_decide, BitVec.toInt_sub, Int.bmod_def]
  omega

theorem ne_and_toInt_le_iff (a b : Word) : a ≠ b ∧ b.toInt ≤ a.toInt ↔ b.toInt < a.toInt := by
  rw [← BitVec.toInt_inj.ne]
  omega

theorem eq_or_toInt_lt_iff (a b : Word) : a = b ∨ a.toInt < b.toInt ↔ a.toInt ≤ b.toInt := by
  rw [← BitVec.toInt_inj]
  omega

theorem toNat_le_and_ne_iff (a b : Word) : b.toNat ≤ a.toNat ∧ a ≠ b ↔ b.toNat < a.toNat := by
  rw [← BitVec.toNat_inj.ne]
  omega

theorem toNat_lt_or_eq_iff (a b : Word) : a.toNat < b.toNat ∨ a = b ↔ a.toNat ≤ b.toNat := by
  rw [← BitVec.toNat_inj]
  omega

/-! ### Calls and returns -/

/-- A register that ends as it began need not be excepted. -/
theorem Frame.of_registers_restored {rs : List RegNum} {as : List Word} {s t : State} (f : Frame rs as s t)
    (restored : ∀ q ∈ rs, t.reg q = s.reg q) : Frame [] as s t where
  registers q _ := by
    by_cases h : q ∈ rs
    · exact restored q h
    · exact f.registers q h
  bytes := f.bytes
  written := f.written
  icache := f.icache
  dcache := f.dcache
  irq := f.irq
  params := f.params

/-- A call where the stack takes a word: the return address below R15, control at the target (45_control.md R472 to
R474). -/
theorem exec_of_callTo {i : Instr} {s : State} {ret target : Word} (run : exec i s = callTo ret target s)
    (takes : s.takesWord (s.reg 15 - 2)) :
    ∃ t, exec i s = .next t ∧ t.reg 15 = s.reg 15 - 2 ∧ t.wordAt (s.reg 15 - 2) = some ret ∧ t.pc = target ∧
      t.fr = s.fr ∧ t.hr = s.hr ∧ Frame [15] [s.reg 15 - 2, s.reg 15 - 2 + 1] s t := by
  have called : exec i s = .next ((s.pushed ret).withPc target) := by rw [run, callTo, push_eq takes, andThen_next]
  exact ⟨_, called, reg_pushed s ret 15, wordAt_pushed takes ret, rfl, by simp, by simp,
    (pushed_frame s ret).withPcFr _ _⟩

/-- A return that leaves the flags `f`: the pc from the word at R15, and R15 past that word (45_control.md R492). -/
theorem exec_of_popPc {i : Instr} {s : State} {v : Word} {f : Flags} (top : s.wordAt (s.reg 15) = some v)
    (run : exec i s = andThen (stackTop s) fun w => .next ((s.withPc w).incSp.withFr f)) :
    ∃ t, exec i s = .next t ∧ t.pc = v ∧ t.reg 15 = s.reg 15 + 2 ∧ t.fr = f ∧ t.hr = s.hr ∧ Frame [15] [] s t := by
  have returned : exec i s = .next ((s.withPc v).incSp.withFr f) := by rw [run, stackTop_of_wordAt top, andThen_next]
  have jumped : Frame [] [] s (s.withPc v) := (Frame.refl [] s).withPcFr v s.fr
  have raised : Frame [15] [] (s.withPc v) (s.withPc v).incSp := setReg_frame ..
  exact ⟨_, returned, by simp, State.reg_incSp .., rfl, by simp, (jumped.trans raised).withPcFr _ f⟩

theorem exec_ret_of_wordAt {s : State} {v : Word} (top : s.wordAt (s.reg 15) = some v) :
    ∃ t, exec .ret s = .next t ∧ t.pc = v ∧ t.reg 15 = s.reg 15 + 2 ∧ t.fr = s.fr ∧ t.hr = s.hr ∧ Frame [15] [] s t :=
  exec_of_popPc top rfl

/-- RET takes back the word that a call has pushed, and R15 with it (45_control.md R494). -/
theorem exec_ret_of_callTo {i : Instr} {s : State} {ret target : Word} (run : exec i s = callTo ret target s)
    (takes : s.takesWord (s.reg 15 - 2)) :
    ∃ t u, exec i s = .next t ∧ exec .ret t = .next u ∧ u.pc = ret ∧ u.fr = s.fr ∧ u.hr = s.hr ∧
      Frame [] [s.reg 15 - 2, s.reg 15 - 2 + 1] s u := by
  obtain ⟨t, called, sp, word, -, fr, hr, frame⟩ := exec_of_callTo run takes
  obtain ⟨u, returned, pc', sp', fr', hr', frame'⟩ := exec_ret_of_wordAt (sp.symm ▸ word)
  have restored : u.reg 15 = s.reg 15 := by rw [sp', sp, BitVec.sub_add_cancel]
  refine ⟨t, u, called, returned, pc', fr'.trans fr, hr'.trans hr, (frame.trans frame').of_registers_restored ?_⟩
  simpa using restored

/-! ### The obligations -/

/-- Settles O26: each of the three jumps replaces the pc. -/
theorem unconditionalJumps : Obligations.UnconditionalJumps := by
  intro rA offs16 imm x s
  obtain ⟨misc, -⟩ := decodeWords_ofNibbles 1 rA 0 imm
  exact ⟨decodeWords_jump .., decodeWords_jump .., fun c _ hy => decodeWords_jump_eq_none c hy x offs16, misc, rfl, rfl,
    rfl⟩

/-- Settles O27: each jump is a branch on its flag, a second name the branch of its first. -/
theorem jumpsOnOneFlag : Obligations.JumpsOnOneFlag := by
  intro o x s
  have branch (c : Bool) := jumpIf_eq_branch c o s
  have decodes (n1 : Nibble) := decodeWords_jump n1 0 x o
  exact ⟨fun c _ hy => decodeWords_jump_eq_none c hy x o, ⟨decodes 0, branch _⟩, ⟨decodes 1, branch _⟩,
    ⟨decodes 2, branch _⟩, ⟨decodes 3, branch _⟩, ⟨decodes 4, branch _⟩, ⟨decodes 5, branch _⟩, ⟨decodes 6, branch _⟩,
    ⟨decodes 7, branch _⟩, ⟨rfl, branch _⟩, ⟨rfl, branch _⟩, ⟨rfl, branch _⟩, ⟨rfl, branch _⟩⟩

/-- Settles O28: each jump is a branch on what its flags say together. -/
theorem jumpsOnSeveralFlags : Obligations.JumpsOnSeveralFlags := by
  intro o x s
  have decodes (n1 : Nibble) := decodeWords_jump n1 0 x o
  exact ⟨fun c _ hy => decodeWords_jump_eq_none c hy x o,
    ⟨decodes 8, exec_of_jumpIf rfl (by simp)⟩, ⟨decodes 9, exec_of_jumpIf rfl (by simp)⟩,
    ⟨decodes 10, exec_of_jumpIf rfl (by simp)⟩, ⟨decodes 11, exec_of_jumpIf rfl (by simp)⟩,
    ⟨decodes 12, exec_of_jumpIf rfl (by simp)⟩, ⟨decodes 13, exec_of_jumpIf rfl (by simp)⟩⟩

/-- Settles O29: the flags that CMP leaves (O10), put into the conditions of the jumps (O27, O28). -/
theorem compareThenBranch : Obligations.CompareThenBranch := by
  intro m i s b o hi hb a
  obtain ⟨t, run, flags, -⟩ := cmpWritesOnlyFlagsInEveryForm m i s b hi hb
  obtain ⟨-, ⟨-, jz⟩, ⟨-, jnz⟩, ⟨-, jc⟩, ⟨-, jnc⟩, ⟨-, js⟩, ⟨-, jns⟩, ⟨-, jo⟩, ⟨-, jno⟩, -⟩ := jumpsOnOneFlag o 0 t
  obtain ⟨-, ⟨-, jge⟩, ⟨-, jlt⟩, ⟨-, jgt⟩, ⟨-, jle⟩, ⟨-, jat⟩, ⟨-, jbe⟩⟩ := jumpsOnSeveralFlags o 0 t
  simp only [flags, ← decide_not, not_lt, Bool.not_not, ne_eq, decide_eq_false_iff_not, decide_eq_true_eq,
    sign_eq_overflow_iff, not_le] at jz jnz jc jnc js jns jo jno jge jlt jgt jle jat jbe
  simp only [← ne_eq, ne_and_toInt_le_iff, eq_or_toInt_lt_iff, toNat_le_and_ne_iff, toNat_lt_or_eq_iff] at jgt jle jat jbe
  exact ⟨t, run, jz, jnz, jc, jnc, js, jns, jo, jno, jge, jlt, jgt, jle, jat, jbe⟩

/-- Settles O30: both are calls that push pc + 4. -/
theorem callsPushTheReturnAddress : Obligations.CallsPushTheReturnAddress := by
  intro offs16 x y s sp
  have decodes (n1 : Nibble) : decodeWords (ofNibbles 10 n1 x y) offs16 = decodeCall n1 x offs16 := by
    simp only [decodeWords_ofNibbles]
  exact ⟨decodes 0, decodes 1, exec_of_callTo rfl, exec_of_callTo rfl⟩

/-- Settles O31: the target is read after R15 is decremented. -/
theorem calliPushesAndGoesToRegister : Obligations.CalliPushesAndGoesToRegister := by
  intro rA s sp takes
  have target : s.decSp.reg rA = if rA = 15 then sp else s.reg rA := State.reg_decSp s rA
  exact target ▸ exec_of_callTo (i := .calli rA) rfl takes

/-- Settles O32: both pop the pc, and RETI leaves IF set. -/
theorem returnsPopThePc : Obligations.ReturnsPopThePc := by
  intro s v imm x top
  obtain ⟨ret, -⟩ := decodeWords_ofNibbles 2 x 0 imm
  obtain ⟨reti, -⟩ := decodeWords_ofNibbles 2 x 1 imm
  exact ⟨ret, reti, exec_ret_of_wordAt top, exec_of_popPc top rfl⟩

/-- Settles O33: each of the three is a call, and RET takes back what a call has pushed. -/
theorem callThenReturnComesBack : Obligations.CallThenReturnComesBack := by
  intro rA offs16 s sp takes
  simp only [List.forall_mem_cons]
  exact ⟨exec_ret_of_callTo rfl takes, exec_ret_of_callTo rfl takes, exec_ret_of_callTo rfl takes, nofun⟩

end Sys2Proof.Machine
end

section
/-! Stack and flags (O34, O35, O37 to O39). PUSH and PUSHF are one push and then the pc, settled once over the word pushed; POP
and POPF are one change of the state, R15 moved up and then the pc, settled once over that change. A round trip puts the two
together: `Frame.of_restored_outside` takes R15, which ends as it began, out of the frame.
-/
namespace Sys2Proof.Machine

/-! ### Pushes and pops -/

/-- PUSH and PUSHF where the stack takes a word: the word below R15, the pc past the instruction (46_stack_flags.md R510). -/
theorem exec_of_push_advance {i : Instr} {s : State} {w : Word}
    (run : exec i s = andThen (push s w) fun t => .next (t.advance 2)) (takes : s.takesWord (s.reg 15 - 2)) :
    ∃ t, exec i s = .next t ∧ t.reg 15 = s.reg 15 - 2 ∧ t.wordAt (s.reg 15 - 2) = some w ∧ t.fr = s.fr ∧
      t.pc = s.pc + 2 ∧ t.hr = s.hr ∧ Frame [15] [s.reg 15 - 2, s.reg 15 - 2 + 1] s t := by
  have pushed : exec i s = .next ((s.pushed w).advance 2) := by rw [run, push_eq takes, andThen_next]
  exact ⟨_, pushed, reg_pushed s w 15, wordAt_pushed takes w, by simp, by simp, by simp,
    (pushed_frame s w).withPcFr _ _⟩

/-- POP and POPF where a word stands at R15: `change` is made with it, R15 moves up and the pc on (46_stack_flags.md R510). -/
theorem exec_of_pop_advance {i : Instr} {s : State} {v : Word} {change : Word → State} {rs : List RegNum}
    (top : s.wordAt (s.reg 15) = some v)
    (run : exec i s = andThen (stackTop s) fun w => .next ((change w).incSp.advance 2))
    (changed : Frame rs [] s (change v)) :
    exec i s = .next ((change v).incSp.advance 2) ∧ Frame (rs ++ [15]) [] s ((change v).incSp.advance 2) := by
  have raised : Frame [15] [] (change v) (change v).incSp := setReg_frame ..
  exact ⟨by rw [run, stackTop_of_wordAt top, andThen_next], (changed.trans raised).withPcFr _ _⟩

/-- A flag at its bit of FR, read bit by bit. -/
theorem getElem_flagBit (b : Bool) (w : Word) (k : Nat) (h : k < 16) : (flagBit b w)[k] = (b && w[k]) := by
  cases b <;> simp [flagBit]

/-- POPF takes back the flags that PUSHF stores, whatever the platform puts into the other ten bits (92_eei_decisions.md
D11). -/
theorem Flags.ofWord_toWord (f : Flags) (r : Word) : Flags.ofWord (f.toWord r) = f := by
  simp [Flags.ofWord, Flags.toWord, getElem_flagBit]

/-- A register that ends as it began need not be excepted by a frame that excepts others. -/
theorem Frame.of_restored_outside {rs qs : List RegNum} {as : List Word} {s t : State} (f : Frame rs as s t)
    (restored : ∀ q ∈ rs, q ∉ qs → t.reg q = s.reg q) : Frame qs as s t :=
  { f with
    registers := fun q outside => by
      by_cases h : q ∈ rs
      · exact restored q h outside
      · exact f.registers q h }

/-! ### The obligations -/

/-- Settles O34: rA is read after R15 is decremented. -/
theorem pushStoresBelowTheStack : Obligations.PushStoresBelowTheStack := by
  intro rA s sp takes
  have stored : s.decSp.reg rA = if rA = 15 then sp else s.reg rA := State.reg_decSp s rA
  exact stored ▸ exec_of_push_advance (i := .push rA) rfl takes

/-- Settles O35: rA is written before R15 is incremented, so that POP R15 increments the word it has loaded. -/
theorem popLoadsFromTheStack : Obligations.PopLoadsFromTheStack := by
  intro rA s v top
  obtain ⟨run, frame⟩ := exec_of_pop_advance (i := .pop rA) (change := s.setReg rA) top rfl (setReg_frame s rA v)
  have raised : (s.setReg rA v).incSp.reg 15 = (s.setReg rA v).reg 15 + 2 := State.reg_incSp ..
  refine ⟨_, run, raised.trans ?_, fun other => ?_, by simp, by simp, by simp, frame⟩
  · split
    next h => rw [h, State.reg_setReg_self s (by decide)]
    next h => rw [State.reg_setReg_ne s (Ne.symm h)]
  · exact (State.reg_setReg_ne _ other _).trans (State.reg_setReg_dest s rA v)

/-- Settles O37: the only other change is that of the flags. -/
theorem popfTakesTheFlags : Obligations.PopfTakesTheFlags := by
  intro s v top
  obtain ⟨run, frame⟩ := exec_of_pop_advance (i := .popf) (change := fun w => s.withFr (Flags.ofWord w)) top rfl
    ((Frame.refl [] s).withPcFr s.pc (Flags.ofWord v))
  exact ⟨_, run, State.reg_incSp .., by simp [Flags.ofWord], by simp, by simp, frame⟩

/-- Settles O38: the pop finds the word pushed (O34, O35, O37) and moves R15 back to where it was. -/
theorem popUndoesPush : Obligations.PopUndoesPush := by
  intro rA rB s f hA hB sp takes
  constructor
  · obtain ⟨t, push, low, word, fr, -, hr, frame⟩ := pushStoresBelowTheStack rA s takes
    rw [if_neg hA] at word
    obtain ⟨u, pop, high, dest, fr', -, hr', frame'⟩ := popLoadsFromTheStack rB t _ (low ▸ word)
    rw [if_neg hB] at high
    have restored : u.reg 15 = s.reg 15 := by rw [high, low, BitVec.sub_add_cancel]
    refine ⟨t, u, push, pop, dest hB, fr'.trans fr, hr'.trans hr, (frame.trans frame').of_restored_outside ?_⟩
    simpa using fun _ => restored
  · obtain ⟨t, push, low, word, -, -, hr, frame⟩ := exec_of_push_advance (i := .pushf) rfl takes
    obtain ⟨u, pop, high, fr', -, hr', frame'⟩ := popfTakesTheFlags (t.withFr f) _ (low ▸ word)
    have restored : u.reg 15 = s.reg 15 := by rw [high, State.reg_withFr, low, BitVec.sub_add_cancel]
    refine ⟨t, u, push, pop, fr'.trans (Flags.ofWord_toWord ..), hr'.trans hr,
      ((frame.withPcFr t.pc f).trans frame').of_registers_restored ?_⟩
    simpa using restored

/-- Settles O39: the five encodings are in the row of N0 = 0, and each meaning is one change of a flag, or none, and the pc. -/
theorem singleFlagInstructionsAndNop : Obligations.SingleFlagInstructionsAndNop := by
  intro s x y imm
  have decodes (n1 n2 n3 : Nibble) : decodeWords (ofNibbles 0 n1 n2 n3) imm = decodeMisc n1 n2 n3 :=
    (decodeWords_ofNibbles n1 n2 n3 imm).1
  exact ⟨decodes 5 x 0, decodes 5 x 1, decodes 5 x 2, decodes 5 x 3, decodes 0 x y, rfl, rfl, rfl, rfl, rfl⟩

end Sys2Proof.Machine
end

section
/-! System and interrupts (O25, O40 to O43) and the end of a run (O56). The interrupt is settled once, as the meaning of IRC:
the step that takes a request runs it, and RETI takes back the word that it has pushed. That masked requests have no effect
rests on one case split over the instructions, `exec_withIrq`: none of them sees or changes the environment's drive.
-/
namespace Sys2Proof.Machine

/-! ### Cache blocks -/

theorem clearCacheBlock_of_transparent {s : State} (h : s.params.cacheTransparent = true) (a len : Word) :
    clearCacheBlock a len s = .next ((s.clearValidBits a).advance len) := if_pos h

theorem clearCacheBlock_of_not_transparent {s : State} (h : s.params.cacheTransparent = false) (a len : Word) :
    clearCacheBlock a len s = .refused .cacheNotTransparent := if_neg (by simp [h])

/-- CCB at `a` under transparent caches: the records of both caches and the pc, and nothing else (47_system.md R531). -/
theorem exec_of_clearCacheBlock {i : Instr} {s : State} {a len : Word} (run : exec i s = clearCacheBlock a len s)
    (h : s.params.cacheTransparent = true) :
    ∃ l d, exec i s = .next { s with pc := s.pc + len, icacheCleared := l, dcacheCleared := d } ∧
      (∀ x, x ∈ l ↔ x = a.toNat ∨ x ∈ s.icacheCleared) ∧ ∀ x, x ∈ d ↔ x = a.toNat ∨ x ∈ s.dcacheCleared :=
  ⟨_, _, run.trans (clearCacheBlock_of_transparent h a len), mem_insertAddr _ _, mem_insertAddr _ _⟩

/-! ### Which request the boundary takes -/

theorem accepted_of_masked {s : State} (h : s.fr.IF = false) : s.accepted = none := if_neg (by simp [h])

/-- With IF set the request driven at the boundary is the one taken (60_exceptions.md R602). -/
theorem accepted_of_request {s : State} {v : Word} {rest : List (Option Word)} (h : s.fr.IF = true)
    (driven : s.irq = some v :: rest) : s.accepted = some v := by
  rw [State.accepted, if_pos h, State.request, driven, List.headD_cons]

theorem step_of_accepted {s : State} {v : Word} (h : s.accepted = some v) : step s = exec (.irc v) s.pastBoundary := by
  rw [step, h]

theorem State.quiet.accepted_eq_none {s : State} (h : s.quiet) : s.accepted = none := by
  rcases h with masked | undriven
  · exact accepted_of_masked masked
  · have request : s.request = none := by
      cases driven : s.irq with
      | nil => rw [State.request, driven, List.headD_nil]
      | cons r rest => rw [State.request, driven, List.headD_cons, undriven r (driven ▸ List.mem_cons_self)]
    rw [State.accepted, request, ite_self]

theorem State.quiet.pastBoundary {s : State} (h : s.quiet) : s.pastBoundary.quiet :=
  h.imp_right fun undriven r later => undriven r (List.mem_of_mem_tail later)

/-! ### The environment's drive reaches no instruction -/

/-- The fetch reads memory alone. -/
theorem fetch_withIrq (s : State) (q : List (Option Word)) : fetch (s.withIrq q) = fetch s := rfl

/-- `x` with the environment's drive of its next state replaced. -/
def redriven (q : List (Option Word)) (x : Result State) : Result State := andThen x fun t => .next (t.withIrq q)

section
variable (s : State) (q : List (Option Word))

@[simp] theorem State.setReg_withIrq (r : RegNum) (v : Word) :
    (s.withIrq q).setReg r v = (s.setReg r v).withIrq q := by
  unfold State.setReg; split <;> rfl
@[simp] theorem State.decSp_withIrq : (s.withIrq q).decSp = s.decSp.withIrq q := State.setReg_withIrq s q 15 _
@[simp] theorem State.incSp_withIrq : (s.withIrq q).incSp = s.incSp.withIrq q := State.setReg_withIrq s q 15 _
@[simp] theorem State.withPc_withIrq (t : Word) : (s.withIrq q).withPc t = (s.withPc t).withIrq q := rfl
@[simp] theorem State.advance_withIrq (len : Word) : (s.withIrq q).advance len = (s.advance len).withIrq q := rfl
@[simp] theorem State.withFr_withIrq (f : Flags) : (s.withIrq q).withFr f = (s.withFr f).withIrq q := rfl
@[simp] theorem State.withIF_withIrq (b : Bool) : (s.withIrq q).withIF b = (s.withIF b).withIrq q := rfl
@[simp] theorem State.drawn_withIrq (n : Nat) : (s.withIrq q).drawn n = (s.drawn n).withIrq q := rfl
@[simp] theorem State.hiddenExists_withIrq (k : Nibble) : (s.withIrq q).hiddenExists k = s.hiddenExists k := rfl

theorem alu_withIrq (op : AluOp) (rd : RegNum) (a b len : Word) :
    alu op rd a b len (s.withIrq q) = (alu op rd a b len s).withIrq q := by
  simp only [alu, aluFinish, State.setReg_withIrq]
  split <;> rfl

theorem multiply_withIrq (rA : RegNum) (p : BitVec 32) (c : Bool) :
    multiply rA p c (s.withIrq q) = (multiply rA p c s).withIrq q := by
  rw [multiply, State.setReg_withIrq]; rfl

end

theorem next_eq_redriven {q : List (Option Word)} {u t : State} (h : u = t.withIrq q) :
    (.next u : Result State) = redriven q (.next t) := congrArg Host.Outcome.next h

/-- Two parts in a row that neither see nor change the drive do so together. -/
theorem andThen_redriven {q : List (Option Word)} {x : Result State} {f g : State → Result State}
    (h : ∀ u, g (u.withIrq q) = redriven q (f u)) : andThen (redriven q x) g = redriven q (andThen x f) := by
  cases x with
  | next u => exact h u
  | fault r => rfl
  | refused r => rfl

/-- What is done with a value read is done with the same value read. -/
theorem andThen_read_redriven {q : List (Option Word)} {α : Type} {x : Result α} {f g : α → State}
    (h : ∀ v, g v = (f v).withIrq q) :
    (andThen x fun v => .next (g v)) = redriven q (andThen x fun v => .next (f v)) := by
  cases x with
  | next v => exact next_eq_redriven (h v)
  | fault r => rfl
  | refused r => rfl

theorem jumpIf_withIrq (c : Bool) (o : Word) (s : State) (q : List (Option Word)) :
    jumpIf c o (s.withIrq q) = redriven q (jumpIf c o s) := by cases c <;> rfl

theorem clearCacheBlock_withIrq (a len : Word) (s : State) (q : List (Option Word)) :
    clearCacheBlock a len (s.withIrq q) = redriven q (clearCacheBlock a len s) := by
  cases h : s.params.cacheTransparent with
  | true => rw [clearCacheBlock_of_transparent h, clearCacheBlock_of_transparent (s := s.withIrq q) h]; rfl
  | false => rw [clearCacheBlock_of_not_transparent h, clearCacheBlock_of_not_transparent (s := s.withIrq q) h]; rfl

theorem putByte_withIrq (s : State) (q : List (Option Word)) (a : Word) (b : Byte) :
    putByte (s.withIrq q) a b = redriven q (putByte s a b) := by
  simp only [putByte, State.kindAt_withIrq]
  split <;> rfl

theorem writeWord_withIrq (s : State) (q : List (Option Word)) (a v : Word) :
    writeWord (s.withIrq q) a v = redriven q (writeWord s a v) := by
  simp only [writeWord, State.misaligned_withIrq, putByte_withIrq]
  split
  · rfl
  · exact andThen_redriven fun u => putByte_withIrq u q _ _

theorem storeByteAt_withIrq (rA : RegNum) (a len : Word) (s : State) (q : List (Option Word)) :
    storeByteAt rA a len (s.withIrq q) = redriven q (storeByteAt rA a len s) := by
  rw [storeByteAt, writeByte, putByte_withIrq]
  exact andThen_redriven fun _ => rfl

theorem storeWordAt_withIrq (rA : RegNum) (a len : Word) (s : State) (q : List (Option Word)) :
    storeWordAt rA a len (s.withIrq q) = redriven q (storeWordAt rA a len s) := by
  rw [storeWordAt, writeWord_withIrq]
  exact andThen_redriven fun _ => rfl

/-- A push, then a change of the state outside the drive. -/
theorem push_andThen_withIrq {s : State} {q : List (Option Word)} {v : Word} {f : State → State}
    (h : ∀ u, f (u.withIrq q) = (f u).withIrq q) :
    (andThen (push (s.withIrq q) v) fun u => .next (f u)) = redriven q (andThen (push s v) fun u => .next (f u)) := by
  rw [push, State.decSp_withIrq, writeWord_withIrq]
  exact andThen_redriven fun u => next_eq_redriven (h u)

/-- No instruction sees or changes what the environment drives (60_exceptions.md R602; 92_eei_decisions.md D19). -/
theorem exec_withIrq (i : Instr) (s : State) (q : List (Option Word)) :
    exec i (s.withIrq q) = redriven q (exec i s) := by
  cases i
  case nop | jmp | jmpa | jmpi | clc | stc | cli | sti => rfl
  case jz | jnz | jc | jnc | js | jns | jo | jno | jge | jlt | jgt | jle | jat | jbe | jeq | jne | jbt | jae =>
    exact jumpIf_withIrq _ _ s q
  case ccbInd | ccbBased => exact clearCacheBlock_withIrq _ _ s q
  case not | neg | inc | dec => exact next_eq_redriven (by simp)
  case mulu | muls => exact next_eq_redriven (multiply_withIrq ..)
  case stbInd | stbBased | stsInd | stsBased => exact storeByteAt_withIrq _ _ _ s q
  case stInd | stBased => exact storeWordAt_withIrq _ _ _ s q
  case pushf | call | calla | irc => exact push_andThen_withIrq fun _ => rfl
  case push | calli =>
    simp only [exec, execPush, execCalli, State.decSp_withIrq, State.reg_withIrq]
    exact push_andThen_withIrq fun _ => rfl
  case pop | popf | ret | reti => exact andThen_read_redriven fun v => by simp
  case mhr rA k => by_cases h : s.hiddenExists k = true <;> simp [exec, execMhr, redriven, h]
  -- the ALU instructions: those whose operands are in the state, then those that read operand B from memory
  all_goals first
    | exact next_eq_redriven (alu_withIrq ..)
    | exact andThen_read_redriven fun _ => alu_withIrq ..

/-! ### The end of a run -/

theorem exec_jmp (o : Word) (s : State) : exec (.jmp o) s = .next (s.withPc (s.relative o)) := rfl

/-- The displacement -2 of the end marker (45_control.md R470; 70_reset_and_hazards.md R705). -/
theorem State.relative_self (s : State) : s.relative 0xFFFE = s.pc :=
  (BitVec.add_assoc s.pc 2 0xFFFE).trans (BitVec.add_zero s.pc)

/-- At the end marker the step leaves everything but the drive: the jump comes back to its own address
(70_reset_and_hazards.md R705). -/
theorem step_of_atEnd {s : State} (h : s.atEnd) : step s = .next s.pastBoundary := by
  obtain ⟨quiet, marker⟩ := h
  have back : s.pastBoundary.relative 0xFFFE = s.pc := s.pastBoundary.relative_self
  rw [step_of_not_accepted quiet.accepted_eq_none, marker, andThen_next, exec_jmp, back]
  rfl

theorem State.atEnd.pastBoundary {s : State} (h : s.atEnd) : s.pastBoundary.atEnd := by
  obtain ⟨quiet, marker⟩ := h
  exact ⟨quiet.pastBoundary, marker⟩

/-! ### The obligations -/

/-- Settles O40: IRC is one push of the pc, followed by a change of pc and IF. -/
theorem ircEntersTheHandler : Obligations.IrcEntersTheHandler := by
  intro v s sp takes
  exact ⟨_, takeInterrupt_eq takes v, reg_pushed s s.pc 15, wordAt_pushed takes s.pc, rfl, by simp, by simp,
    (pushed_frame s s.pc).withPcFr _ _⟩

/-- Settles O25: both forms clear one block, at the address that each of them computes. -/
theorem ccbChangesNothingVisible : Obligations.CcbChangesNothingVisible := by
  intro rB offs16 s
  exact ⟨fun h =>
      ⟨exec_of_clearCacheBlock (i := .ccbInd rB) rfl h, exec_of_clearCacheBlock (i := .ccbBased rB offs16) rfl h⟩,
    fun h => ⟨clearCacheBlock_of_not_transparent h .., clearCacheBlock_of_not_transparent h ..⟩⟩

/-- Settles O41: the step runs IRC past the boundary (O40). -/
theorem assertedRequestIsTaken : Obligations.AssertedRequestIsTaken := by
  intro v rest s enabled driven sp takes
  obtain ⟨t, run, sp', word, pc, fr, hr, frame⟩ := ircEntersTheHandler v s.pastBoundary takes
  have taken := (step_of_accepted (accepted_of_request enabled driven)).trans run
  have drive : t.irq = rest := by rw [frame.irq, State.pastBoundary_irq, driven, List.tail_cons]
  exact ⟨t, taken, sp', word, pc, fr, hr, drive, frame⟩

/-- Settles O42: RETI finds the word that the entry has pushed (O41, O32) and moves R15 back to where it was. -/
theorem interruptThenRetiResumes : Obligations.InterruptThenRetiResumes := by
  intro v rest s enabled driven sp takes
  obtain ⟨t, taken, low, word, -, fr, hr, -, frame⟩ := assertedRequestIsTaken v rest s enabled driven takes
  obtain ⟨-, -, -, u, returned, pc, high, fr', hr', frame'⟩ := returnsPopThePc t s.pc 0 0 (low.symm ▸ word)
  have restored : u.reg 15 = s.reg 15 := by rw [high, low, BitVec.sub_add_cancel]
  have flags : u.fr = s.fr := by rw [fr', fr, ← enabled]
  refine ⟨t, u, taken, returned, pc, flags, hr'.trans hr, (frame.trans frame').of_registers_restored ?_⟩
  simpa using restored

/-- Settles O43: the boundary takes no request, and neither the fetch nor the instruction sees the drive. -/
theorem maskedRequestsHaveNoEffect : Obligations.MaskedRequestsHaveNoEffect := by
  intro s t q masked run
  rw [step_of_not_accepted (accepted_of_masked masked)] at run
  obtain ⟨i, fetched, executed⟩ := andThen_eq_next.1 run
  have drive : (s.withIrq q).pastBoundary = s.pastBoundary.withIrq q.tail := rfl
  have unmoved : (s.withIrq q).accepted = none := accepted_of_masked masked
  rw [step_of_not_accepted unmoved, fetch_withIrq, fetched, andThen_next, drive, exec_withIrq, executed]
  rfl

/-- Settles O56, by induction on the number of steps: each of them is a step at the end marker. -/
theorem endMarkerChangesNothing : Obligations.EndMarkerChangesNothing := by
  intro s k
  induction k generalizing s with
  | zero => exact fun _ => rfl
  | succ k ih =>
    intro h
    calc stepsTo (k + 1) s
        _ = stepsTo k s.pastBoundary := by rw [stepsTo, step_of_atEnd h, andThen_next]
        _ = .next (s.pastBoundary.withIrq (s.irq.tail.drop k)) := ih _ h.pastBoundary
        _ = .next (s.withIrq (s.irq.drop (k + 1))) := by rw [List.drop_tail]; rfl

end Sys2Proof.Machine
end
